-- ==== Sys2Proof/Word.lean ====
section
/-! DEFINITION. The word types of the block: bytes, frames, command words (00_scope.md R8, 30_encoding.md R50, R56). -/

namespace Sys2Proof

/-- A byte, bits 7:0 (R8): a chip register's value, a status byte, one exchange. -/
abbrev Byte := BitVec 8

/-- A transaction frame: 16 bits (R50). -/
abbrev Frame := BitVec 16

/-- A command word: 40 bits (R56). -/
abbrev CommandWord := BitVec 40

/-- The operand field OPND of a command word: 32 bits (R56). -/
abbrev Operand := BitVec 32

end Sys2Proof
end

