-- ==== Sys2Proof/Config.lean ====
section
/-! DEFINITION. The implementation parameters of 00_scope.md R7 and the free values.
Fixed parameters are numbers; open ones are opaque constants, so that nothing can be proved of their value
(R7, R25: "fixed for the block's life"). The free answers of the two collaborators stand here too (R16, R17). -/

namespace Sys2Proof

/-- What a chip-select drive returns (10_state.md R17): Ok, or a line-drive error. -/
inductive DriveResult where
  | ok
  | err
deriving DecidableEq, Repr, Inhabited

/-- The answer of the line collaborator to one drive: it returns, or it never does (92_eei_decisions.md D23). -/
inductive DriveAnswer where
  | returns (r : DriveResult)
  | never
deriving DecidableEq, Repr, Inhabited

/-- The answer of the exchange collaborator to one exchange (10_state.md R16): the byte received, a transport
error, or none ever ("An exchange may also never complete"). -/
inductive ExchangeAnswer where
  | ok (b : Byte)
  | err
  | never
deriving DecidableEq, Repr, Inhabited

/-- The five flags of the status byte (10_state.md R22). -/
inductive StatusFlag where
  | pllLock
  | fifoOver
  | fifoUnder
  | fifoFull
  | fifoEmpty
deriving DecidableEq, Repr

/-- The chip registers that the block's commands name (20_memory.md R31). -/
inductive ChipReg where
  | scratch
  | pwrmode
  | fifodata
  | pincfg1
  | pincfg2
  | modulation
  | encoding
  | framing
  | freq3
  | freq2
  | freq1
  | freq0
  | pllloop
  | pllranging
  | txpwr
  | txratehi
  | txratemid
  | txratelo
deriving DecidableEq, Repr

/-- `PLLLOOP_LAYOUT` (R7, 30_encoding.md R61): the bit position of the lowest bit of each sub-field, and a byte that
gives the bits no sub-field covers. -/
structure PllLoopLayout where
  flt : Nat
  cpi : Nat
  bs : Nat
  fs : Nat
  rest : Byte
deriving DecidableEq, Repr

namespace Config

/-- `CRYSTAL_HZ`, fixed (R7). -/
def crystalHz : Nat := 16000000

/-- `QSHIFT`, fixed (R7): the factor is 2^24. -/
def qshift : Nat := 24

/-- `POLL_LIMIT`, fixed (R7). -/
def pollLimit : Nat := 3000

/-- `RANGING_START`, fixed at the source's value (R7, 90_conflicts.md C5). -/
def rangingStart : Byte := 0x08

/-- `RANGING_BUSY_BIT`, fixed (R7). -/
def rangingBusyBit : Nat := 4

/-- `RANGING_ERR_BIT`, fixed (R7). -/
def rangingErrBit : Nat := 5

/-- `STATUS_POS`, open (R7, R53, D7): the bit index of each flag. Log entry 9. -/
opaque statusPos : StatusFlag → Fin 8

/-- Chooses `ADDR_PINCFG2` among the addresses R32 allows. Log entry 10. -/
opaque pincfg2Pick : Nat

/-- Chooses `ADDR_FRAMING` among the addresses R32 still allows. Log entry 10. -/
opaque framingPick : Nat

/-- Chooses `ADDR_ENCODING` among the addresses R32 still allows. Log entry 10. -/
opaque encodingPick : Nat

/-- Chooses the sub-field positions of `PLLLOOP_LAYOUT` among those that pack the four sub-fields into one byte
(R61, D9). Log entry 11. -/
opaque pllLoopPick : Nat

/-- The bits of the PLLLOOP byte that no sub-field covers (91_not_in_source.md N4). Log entry 11. -/
opaque pllLoopRest : Byte

/-- The answer to the n-th drive where the environment has scripted none (R17: "a draw in a model"). Log entry 3. -/
opaque freeDrive : Nat → DriveAnswer

/-- The answer to the n-th exchange where the environment has scripted none (R16, R18: "any byte the chip oracle
answers"). Log entry 3. -/
opaque freeExchange : Nat → ExchangeAnswer

end Config
end Sys2Proof
end

