-- ==== Sys2Proof/Syntax.lean ====
section
/-! DEFINITION. Syntax: one constructor for every row of spec/opcode_table.json. -/

namespace Sys2Proof

/-- The mode of one register transaction (00_scope.md R9): `Read` or `Write(v : 8 bits)`. -/
inductive AccessMode where
  | read
  | write (v : Byte)
deriving DecidableEq, Repr

/-- The commands of 30_encoding.md R57, one constructor per row of the opcode table (EXEC and SET_PWRMODE have one row
per direction and per power mode), and the two wire frames of R50. A register address is a byte of which the encodings
keep the low seven bits (R52 "masked to 7 bits", R100); `Instr.wellFormed` says that it is one of 0x00 to 0x7F. -/
inductive Instr where
  /-- EXEC.R: read one chip register (R108). -/
  | execR (addr : Byte)
  /-- EXEC.W: write one chip register (R108). -/
  | execW (addr : Byte) (data : Byte)
  /-- GET_SCRATCH (R111). -/
  | getScratch
  /-- SET_SCRATCH (R112). -/
  | setScratch (v : Byte)
  /-- SET_PWRMODE POWERDOWN, code 0x0 (R113, R60). -/
  | setPwrmodePowerdown
  /-- SET_PWRMODE VREGON, code 0x4 (R113, R60). -/
  | setPwrmodeVregon
  /-- SET_PWRMODE STANDBY, code 0x5 (R113, R60). -/
  | setPwrmodeStandby
  /-- SET_PWRMODE SYNTHTX, code 0xC (R113, R60). -/
  | setPwrmodeSynthtx
  /-- SET_PWRMODE FULLTX, code 0xD (R113, R60). -/
  | setPwrmodeFulltx
  /-- SET_PLLLOOP: filter bandwidth, charge-pump current, band select, frequency select (R114). -/
  | setPllloop (flt : BitVec 2) (cpi : BitVec 2) (bs : BitVec 1) (fs : BitVec 1)
  /-- SET_FREQ: the carrier frequency in Hz (R132). -/
  | setFreq (val : BitVec 32)
  /-- GET_FREQ (R133). -/
  | getFreq
  /-- SET_TXPWR (R115). -/
  | setTxpwr
  /-- SET_TXRATE: the bitrate in bit/s (R134). -/
  | setTxrate (val : BitVec 32)
  /-- SET_MOD: the selector, 0 = on-off keying (R116). -/
  | setMod (sel : Byte)
  /-- GET_MOD (R117). -/
  | getMod
  /-- SET_FRAMING: the selector, 0 = raw (R118). -/
  | setFraming (sel : Byte)
  /-- SET_ENCODING: the selector, 0 = NRZ (R119). -/
  | setEncoding (sel : Byte)
  /-- SET_SYSCLK_LED: ON, one bit (R120). -/
  | setSysclkLed (on : BitVec 1)
  /-- GET_PINCFG1 (R121). -/
  | getPincfg1
  /-- GET_PINCFG2 (R122). -/
  | getPincfg2
  /-- TX_BYTE (R123). -/
  | txByte (v : Byte)
  /-- AUTORANGE (R141). -/
  | autorange
  /-- FRAME.READ: the 16-bit wire frame of a read transaction (R101). -/
  | frameRead (addr : Byte)
  /-- FRAME.WRITE: the 16-bit wire frame of a write transaction (R102). -/
  | frameWrite (addr : Byte) (data : Byte)
deriving DecidableEq, Repr

end Sys2Proof
end

