-- ==== Sys2Proof/Machine/State.lean ====
section
/-! DEFINITION. The architectural state (10_state.md R13 to R15, R23, R24, R28), the model's own record of the
environment, and the reset state. -/

namespace Sys2Proof.Machine

open Sys2Proof

/-- The chip-select level the block last drove (R14). High is inactive, Low active; Unknown after a failed drive. -/
inductive CsLevel where
  | high
  | low
  | unknown
deriving DecidableEq, Repr

/-- The two chip-select drives, `CsLow` and `CsHigh` (R17). -/
inductive Drive where
  | low
  | high
deriving DecidableEq, Repr

/-- Where a Busy command stands in the pseudocode of Transact (40_framer.md R104, R105). -/
inductive Point where
  /-- No transaction in flight: before the first one, after one that returned Ok, or at the command's end. -/
  | between
  /-- Step 3: the high byte is to be exchanged. -/
  | sendHigh
  /-- Step 4: the low byte is to be exchanged. -/
  | sendLow
  /-- Step 5: chip-select is to be driven High. -/
  | release
  /-- RestoreCs: a step failed and the one restore drive is to be made. -/
  | restore
  /-- Transact has returned Err(BusFault). -/
  | failed
deriving DecidableEq, Repr

/-- The values local to one command (R15). -/
structure Locals where
  point : Point
  /-- Transactions the command has completed with Ok. -/
  txns : Nat
  frame : Frame
  status : Byte
  data : Byte
  word : BitVec 32
  bytes : List Byte
deriving DecidableEq, Repr

/-- The locals at acceptance. Log entry 12. -/
def Locals.fresh : Locals :=
  { point := .between, txns := 0, frame := 0, status := 0, data := 0, word := 0, bytes := [] }

/-- The sequencer phase (R15): Idle, or Busy with the command, the count of events it has performed, and its
locals. -/
inductive Phase where
  | idle
  | busy (cmd : Instr) (k : Nat) (locals : Locals)
deriving DecidableEq, Repr

/-- The seven codes of 60_exceptions.md R151 that are produced. -/
inductive Code where
  | ok
  | busFault
  | autoRangingTimeout
  | autoRangingError
  | unsupportedMode
  | unrecognizedState
  | illegalCommand
deriving DecidableEq, Repr

/-- A response (30_encoding.md R66). -/
structure Response where
  code : Code
  sv : Bool
  status : Byte
  data : BitVec 32
deriving DecidableEq, Repr

/-- A downstream event (00_scope.md R10): a drive with its outcome (`CSL`, `CSH`), or an exchange with the byte sent
and the byte received, `none` for `X(out -> Err)`. -/
inductive Event where
  | drive (d : Drive) (r : DriveResult)
  | exchange (out : Byte) (received : Option Byte)
deriving DecidableEq, Repr

/-- The MODEL's own record of the parties around the block (R12): what they will do, and what an observer has seen.
Log entries 2, 3, 5 and 6. -/
structure Env where
  /-- The reset input (70_reset_and_hazards.md R170). -/
  resetLine : Bool
  /-- The host takes a response as soon as there is one (R27). -/
  hostReady : Bool
  /-- The words the host has yet to present, the first on the port now (R27). -/
  cmds : List CommandWord
  /-- The answers to the coming drives (R17). -/
  drives : List DriveAnswer
  /-- The answers to the coming exchanges (R16, R18). -/
  exchanges : List ExchangeAnswer
  /-- Drives answered so far. -/
  driveCalls : Nat
  /-- Exchanges answered so far. -/
  exchangeCalls : Nat
  /-- The downstream events performed so far, oldest first (R10). -/
  trace : List Event
  /-- The responses the host has taken, oldest first. -/
  taken : List Response
deriving DecidableEq, Repr

/-- The machine's state: the record of R13, and the environment. -/
structure State where
  cs : CsLevel
  phase : Phase
  /-- The auto-ranging poll index, 0 to 3000 (R23). -/
  poll : Nat
  resp : Option Response
  env : Env
deriving DecidableEq, Repr

/-- No step of this machine stops with a fault: every error is a response (60_exceptions.md R155), and a call that
never returns is a wait (70_reset_and_hazards.md R178). The type has no constructor. -/
inductive Fault where
deriving DecidableEq, Repr

/-- Why a meaning is refused. `step` never meets the second and third: it gives `exec` only an accepted command or
the command in progress. -/
inductive Refusal where
  /-- Raised by an arm of `exec` that has no meaning yet; safe. No arm raises it. -/
  | notModelled (mnemonic : String)
  /-- Raised by a meaning asked for while another command is Busy: "a model refuses interleaved commands rather than
  giving them a meaning" (R27, R177, 93_implementation_defined.md U1); safe. -/
  | interleaved
  /-- Raised by a meaning asked for while a response is still held: "The block accepts a command only when
  phase = Idle and resp is empty" (R27); safe. -/
  | responseHeld
deriving DecidableEq, Repr

/-- The environment with nothing scripted and nothing seen. Log entries 2, 3, 5 and 6. -/
def Env.initial : Env :=
  { resetLine := false, hostReady := true, cmds := [], drives := [], exchanges := [], driveCalls := 0,
    exchangeCalls := 0, trace := [], taken := [] }

/-- The reset state (R28, 70_reset_and_hazards.md R170): cs = High, phase = Idle, poll = 0, resp empty. -/
def State.reset : State :=
  { cs := .high, phase := .idle, poll := 0, resp := none, env := Env.initial }

end Sys2Proof.Machine
end

