-- ==== Sys2Proof/Machine/Operands.lean ====
section
/-! DEFINITION. Register addresses (20_memory.md R31, R32), the PLLLOOP packing (30_encoding.md R61), the quantizer
(42_quantization.md R128 to R130), byte splits (30_encoding.md R64) and the packed response (R66). -/

namespace Sys2Proof.Machine

open Sys2Proof

/-- The addresses that the source gives (R31); none for the three open ones (R32). -/
def fixedAddr : ChipReg → Option Byte
  | .scratch => some 0x01
  | .pwrmode => some 0x02
  | .fifodata => some 0x05
  | .pincfg1 => some 0x0C
  | .pincfg2 => none
  | .modulation => some 0x10
  | .encoding => none
  | .framing => none
  | .freq3 => some 0x20
  | .freq2 => some 0x21
  | .freq1 => some 0x22
  | .freq0 => some 0x23
  | .pllloop => some 0x2C
  | .pllranging => some 0x2D
  | .txpwr => some 0x30
  | .txratehi => some 0x31
  | .txratemid => some 0x32
  | .txratelo => some 0x33

/-- The registers of R31 in the table's order. -/
def allRegs : List ChipReg :=
  [.scratch, .pwrmode, .fifodata, .pincfg1, .pincfg2, .modulation, .encoding, .framing, .freq3, .freq2, .freq1, .freq0,
   .pllloop, .pllranging, .txpwr, .txratehi, .txratemid, .txratelo]

/-- The 7-bit addresses that no register of R31 has: those R32 allows for the three open ones. -/
def openAddrs : List Byte :=
  ((List.range 128).map (BitVec.ofNat 8)).filter (fun a => !(allRegs.filterMap fixedAddr).contains a)

/-- The element of `l` that an unconstrained number chooses, `d` if `l` is empty. -/
def choose {α : Type} (l : List α) (pick : Nat) (d : α) : α := l.getD (pick % l.length) d

/-- `ADDR_PINCFG2` (R32): any address no named register has. -/
def addrPincfg2 : Byte := choose openAddrs Config.pincfg2Pick 0x0D

/-- `ADDR_FRAMING` (R32): any address still free. -/
def addrFraming : Byte := choose (openAddrs.erase addrPincfg2) Config.framingPick 0x12

/-- `ADDR_ENCODING` (R32): any address still free. -/
def addrEncoding : Byte := choose ((openAddrs.erase addrPincfg2).erase addrFraming) Config.encodingPick 0x11

/-- The address of a named register (R31, R32). -/
def regAddr : ChipReg → Byte
  | .scratch => 0x01
  | .pwrmode => 0x02
  | .fifodata => 0x05
  | .pincfg1 => 0x0C
  | .pincfg2 => addrPincfg2
  | .modulation => 0x10
  | .encoding => addrEncoding
  | .framing => addrFraming
  | .freq3 => 0x20
  | .freq2 => 0x21
  | .freq1 => 0x22
  | .freq0 => 0x23
  | .pllloop => 0x2C
  | .pllranging => 0x2D
  | .txpwr => 0x30
  | .txratehi => 0x31
  | .txratemid => 0x32
  | .txratelo => 0x33

/-- The bits of a byte that a field of `width` bits at `pos` covers. -/
def fieldMask (pos width : Nat) : Byte := BitVec.ofNat 8 ((2 ^ width - 1) * 2 ^ pos)

/-- The bits of the PLLLOOP byte that the four sub-fields cover (widths 2, 2, 1, 1). -/
def layoutMask (p : PllLoopLayout) : Byte :=
  fieldMask p.flt 2 ||| fieldMask p.cpi 2 ||| fieldMask p.bs 1 ||| fieldMask p.fs 1

/-- The four sub-fields lie inside one byte and share no bit ("packs four sub-fields … into one byte", R61). -/
def layoutFits (p : PllLoopLayout) : Bool :=
  p.flt ≤ 6 && p.cpi ≤ 6 && p.bs ≤ 7 && p.fs ≤ 7 &&
  fieldMask p.flt 2 &&& fieldMask p.cpi 2 == 0 &&
  (fieldMask p.flt 2 ||| fieldMask p.cpi 2) &&& fieldMask p.bs 1 == 0 &&
  (fieldMask p.flt 2 ||| fieldMask p.cpi 2 ||| fieldMask p.bs 1) &&& fieldMask p.fs 1 == 0

/-- The default of `PLLLOOP_LAYOUT` (R7, R61): FLT 1:0, CPI 3:2, BANDSEL 4, FREQSEL 5, bits 7:6 zero. -/
def defaultLayout : PllLoopLayout := { flt := 0, cpi := 2, bs := 4, fs := 5, rest := 0 }

/-- Every placing of the four sub-fields in one byte, the uncovered bits left to `rest`. -/
def allLayouts (rest : Byte) : List PllLoopLayout :=
  ((List.range 7).flatMap fun flt => (List.range 7).flatMap fun cpi => (List.range 8).flatMap fun bs =>
    (List.range 8).map fun fs => { flt, cpi, bs, fs, rest : PllLoopLayout }).filter layoutFits

/-- `PLLLOOP_LAYOUT` (R7, D9): open. -/
def pllLoopLayout : PllLoopLayout := choose (allLayouts Config.pllLoopRest) Config.pllLoopPick defaultLayout

/-- PackPllLoop (R61) under a given layout. -/
def packPllLoopAt (p : PllLoopLayout) (flt cpi : BitVec 2) (bs fs : BitVec 1) : Byte :=
  (flt.setWidth 8 <<< p.flt) ||| (cpi.setWidth 8 <<< p.cpi) ||| (bs.setWidth 8 <<< p.bs) ||| (fs.setWidth 8 <<< p.fs) |||
    (p.rest &&& ~~~ layoutMask p)

/-- PackPllLoop (R61) under the open parameter `PLLLOOP_LAYOUT`. -/
def packPllLoop (flt cpi : BitVec 2) (bs fs : BitVec 1) : Byte := packPllLoopAt pllLoopLayout flt cpi bs fs

/-- Quantize (R128), in exact natural arithmetic: ceil(v · 2^24 / CRYSTAL_HZ + 1/2). -/
def quantize (v : Nat) : Nat :=
  (2 * v * 2 ^ Config.qshift + 3 * Config.crystalHz - 1) / (2 * Config.crystalHz)

/-- FW(f) = Q(f) mod 2^32 (R129). -/
def freqWord (f : BitVec 32) : BitVec 32 := BitVec.ofNat 32 (quantize f.toNat)

/-- TW(r) = Q(r) mod 2^24 (R130). -/
def rateWord (r : BitVec 32) : BitVec 24 := BitVec.ofNat 24 (quantize r.toNat)

/-- Byte `n` of a 32-bit word, `W[8n+7 : 8n]` (R64). -/
def wordByte (w : BitVec 32) (n : Nat) : Byte := w.extractLsb' (8 * n) 8

/-- Bytes reassembled big-endian, the first the most significant (R133): four give
(b3 << 24) | (b2 << 16) | (b1 << 8) | b0. -/
def assemble (bytes : List Byte) : BitVec 32 :=
  bytes.foldl (fun w b => (w <<< 8) ||| b.setWidth 32) 0

/-- `busy = v[RANGING_BUSY_BIT]` (43_autoranging.md R144). -/
def rangingBusy (v : Byte) : Bool := v.getLsbD Config.rangingBusyBit

/-- `err = v[RANGING_ERR_BIT]` (43_autoranging.md R144). -/
def rangingErr (v : Byte) : Bool := v.getLsbD Config.rangingErrBit

/-- The number of a code (60_exceptions.md R151). -/
def codeBits : Code → BitVec 4
  | .ok => 0
  | .busFault => 1
  | .autoRangingTimeout => 2
  | .autoRangingError => 3
  | .unsupportedMode => 4
  | .unrecognizedState => 5
  | .illegalCommand => 6

/-- The packed response (30_encoding.md R66): code 47:44, zeros 43:41, sv 40, status 39:32, data 31:0. -/
def packResponse (r : Response) : BitVec 48 :=
  ((codeBits r.code).setWidth 48 <<< 44) ||| ((BitVec.ofBool r.sv).setWidth 48 <<< 40) ||| (r.status.setWidth 48 <<< 32) |||
    r.data.setWidth 48

end Sys2Proof.Machine
end

