-- ==== Sys2Proof/WellFormed.lean ====
section
/-! DEFINITION. Well-formed instructions: what the operand types do not already say. -/

namespace Sys2Proof

/-- A register address is a 7-bit hardware address, 0x00 to 0x7F (20_memory.md R30). -/
def isRegAddr (addr : Byte) : Bool := addr.toNat < 128

/-- Every operand is one its encoding can carry. Apart from the 7-bit addresses the operand widths are the widths of
the fields (R58). -/
def Instr.wellFormed : Instr → Bool
  | .execR addr => isRegAddr addr
  | .execW addr _ => isRegAddr addr
  | .getScratch => true
  | .setScratch _ => true
  | .setPwrmodePowerdown => true
  | .setPwrmodeVregon => true
  | .setPwrmodeStandby => true
  | .setPwrmodeSynthtx => true
  | .setPwrmodeFulltx => true
  | .setPllloop _ _ _ _ => true
  | .setFreq _ => true
  | .getFreq => true
  | .setTxpwr => true
  | .setTxrate _ => true
  | .setMod _ => true
  | .getMod => true
  | .setFraming _ => true
  | .setEncoding _ => true
  | .setSysclkLed _ => true
  | .getPincfg1 => true
  | .getPincfg2 => true
  | .txByte _ => true
  | .autorange => true
  | .frameRead addr => isRegAddr addr
  | .frameWrite addr _ => isRegAddr addr

end Sys2Proof
end

