-- ==== Sys2Proof/Decode.lean ====
section
/-! DEFINITION. The frame codec (40_framer.md R100 to R102), the command decoder (30_encoding.md R56 to R59, R68) and,
after them, the encoder. -/

namespace Sys2Proof

/-- EncodeFrame (R100): direction in bit 15, the address masked to 7 bits in bits 14:8, the data in bits 7:0. -/
def encodeFrame (addr : Byte) : AccessMode → Frame
  | .read => ((addr.setWidth 16 &&& 0x7F#16) <<< 8)
  | .write v => (1#16 <<< 15) ||| ((addr.setWidth 16 &&& 0x7F#16) <<< 8) ||| v.setWidth 16

/-- `decode_dir(f) = f[15]` (R68): true is a write (R51). -/
def decodeDir (f : Frame) : Bool := f.getLsbD 15

/-- `decode_address(f) = f[14:8]` (R68). -/
def decodeAddress (f : Frame) : BitVec 7 := f.extractLsb' 8 7

/-- `decode_data(f) = f[7:0]` (R68). -/
def decodeData (f : Frame) : Byte := f.extractLsb' 0 8

/-- The first byte of a frame on the wire, `f[15:8]` (20_memory.md R34). -/
def frameHigh (f : Frame) : Byte := f.extractLsb' 8 8

/-- The second byte of a frame on the wire, `f[7:0]` (20_memory.md R34). -/
def frameLow (f : Frame) : Byte := f.extractLsb' 0 8

/-- Why a word spells no instruction. For a command word each of the first four is IllegalCommand (R59, R159). -/
inductive Reject where
  /-- OP is not in the table of R57. -/
  | unassignedOp (op : Byte)
  /-- A reserved OPND bit of the form is 1. -/
  | reservedBits (opnd : Operand)
  /-- EXEC with RW = 0 and DATA ≠ 0. -/
  | readWithData (data : Byte)
  /-- SET_PWRMODE with a MODE that is none of the five codes. -/
  | notAPowerMode (mode : BitVec 4)
  /-- A wire frame with DIR = 0 and DATA ≠ 0: no row of the table, and the block never emits it (R59). -/
  | neverEmitted (frame : Frame)
deriving DecidableEq, Repr

/-- OP = w[39:32] (R56). -/
def opField (w : CommandWord) : Byte := w.extractLsb' 32 8

/-- OPND = w[31:0] (R56). -/
def opndField (w : CommandWord) : Operand := w.extractLsb' 0 32

/-- Form N: OPND = 0 (R58). -/
def formN (i : Instr) (o : Operand) : Except Reject Instr :=
  if o = 0 then .ok i else .error (.reservedBits o)

/-- Form X: RW = OPND[15], ADDR = OPND[14:8], DATA = OPND[7:0]; OPND[31:16] = 0, and DATA = 0 if RW = 0 (R58). -/
def formX (o : Operand) : Except Reject Instr :=
  if o.extractLsb' 16 16 ≠ 0 then .error (.reservedBits o)
  else
    let addr : Byte := (o.extractLsb' 8 7).setWidth 8
    let data : Byte := o.extractLsb' 0 8
    if o.getLsbD 15 then .ok (.execW addr data)
    else if data = 0 then .ok (.execR addr)
    else .error (.readWithData data)

/-- Form B: V = OPND[7:0]; OPND[31:8] = 0 (R58). -/
def formB (mk : Byte → Instr) (o : Operand) : Except Reject Instr :=
  if o.extractLsb' 8 24 = 0 then .ok (mk (o.extractLsb' 0 8)) else .error (.reservedBits o)

/-- Form M: MODE = OPND[3:0], one of the five codes of R60; OPND[31:4] = 0 (R58). -/
def formM (o : Operand) : Except Reject Instr :=
  if o.extractLsb' 4 28 ≠ 0 then .error (.reservedBits o)
  else
    let mode : BitVec 4 := o.extractLsb' 0 4
    if mode = 0x0 then .ok .setPwrmodePowerdown
    else if mode = 0x4 then .ok .setPwrmodeVregon
    else if mode = 0x5 then .ok .setPwrmodeStandby
    else if mode = 0xC then .ok .setPwrmodeSynthtx
    else if mode = 0xD then .ok .setPwrmodeFulltx
    else .error (.notAPowerMode mode)

/-- Form P: FLT = OPND[1:0], CPI = OPND[3:2], BS = OPND[4], FS = OPND[5]; OPND[31:6] = 0 (R58). -/
def formP (o : Operand) : Except Reject Instr :=
  if o.extractLsb' 6 26 = 0 then
    .ok (.setPllloop (o.extractLsb' 0 2) (o.extractLsb' 2 2) (o.extractLsb' 4 1) (o.extractLsb' 5 1))
  else .error (.reservedBits o)

/-- Form W: VAL = OPND[31:0], no constraint (R58). -/
def formW (mk : BitVec 32 → Instr) (o : Operand) : Except Reject Instr := .ok (mk o)

/-- Form S: SEL = OPND[7:0], any value; OPND[31:8] = 0 (R58). -/
def formS (mk : Byte → Instr) (o : Operand) : Except Reject Instr :=
  if o.extractLsb' 8 24 = 0 then .ok (mk (o.extractLsb' 0 8)) else .error (.reservedBits o)

/-- Form L: ON = OPND[0]; OPND[31:1] = 0 (R58). -/
def formL (o : Operand) : Except Reject Instr :=
  if o.extractLsb' 1 31 = 0 then .ok (.setSysclkLed (o.extractLsb' 0 1)) else .error (.reservedBits o)

/-- The command decoder, total on all 2^40 words (R68): OP is looked up in R57, then the form's constraints are
checked. -/
def decodeCommand (w : CommandWord) : Except Reject Instr :=
  let o := opndField w
  match (opField w).toNat with
  | 0x01 => formX o
  | 0x02 => formN .getScratch o
  | 0x03 => formB .setScratch o
  | 0x04 => formM o
  | 0x05 => formP o
  | 0x06 => formW .setFreq o
  | 0x07 => formN .getFreq o
  | 0x08 => formN .setTxpwr o
  | 0x09 => formW .setTxrate o
  | 0x0A => formS .setMod o
  | 0x0B => formN .getMod o
  | 0x0C => formS .setFraming o
  | 0x0D => formS .setEncoding o
  | 0x0E => formL o
  | 0x0F => formN .getPincfg1 o
  | 0x10 => formN .getPincfg2 o
  | 0x11 => formB .txByte o
  | 0x12 => formN .autorange o
  | _ => .error (.unassignedOp (opField w))

/-- The wire frames of the table: a write frame is any frame with bit 15 set (R102), a read frame has a zero data
field (R101). -/
def decodeFrame (f : Frame) : Except Reject Instr :=
  if decodeDir f then .ok (.frameWrite ((decodeAddress f).setWidth 8) (decodeData f))
  else if decodeData f = 0 then .ok (.frameRead ((decodeAddress f).setWidth 8))
  else .error (.neverEmitted f)

/-- The bits of one instruction: a 40-bit command word (R56), or a 16-bit wire frame (R50). -/
inductive Encoded where
  | command (w : CommandWord)
  | frame (f : Frame)
deriving DecidableEq, Repr

/-- The decoder over both kinds of word. -/
def decode : Encoded → Except Reject Instr
  | .command w => decodeCommand w
  | .frame f => decodeFrame f

/-- A command word from its two fields (R56). -/
def commandWord (op : Byte) (opnd : Operand) : CommandWord := op ++ opnd

/-- The encoder, from the tables of R57, R58 and R60; the operand of EXEC has the frame's own layout (R58). -/
def encode : Instr → Encoded
  | .execR addr => .command (commandWord 0x01 ((encodeFrame addr .read).setWidth 32))
  | .execW addr data => .command (commandWord 0x01 ((encodeFrame addr (.write data)).setWidth 32))
  | .getScratch => .command (commandWord 0x02 0)
  | .setScratch v => .command (commandWord 0x03 (v.setWidth 32))
  | .setPwrmodePowerdown => .command (commandWord 0x04 0x0)
  | .setPwrmodeVregon => .command (commandWord 0x04 0x4)
  | .setPwrmodeStandby => .command (commandWord 0x04 0x5)
  | .setPwrmodeSynthtx => .command (commandWord 0x04 0xC)
  | .setPwrmodeFulltx => .command (commandWord 0x04 0xD)
  | .setPllloop flt cpi bs fs => .command (commandWord 0x05 ((fs ++ bs ++ cpi ++ flt).setWidth 32))
  | .setFreq val => .command (commandWord 0x06 val)
  | .getFreq => .command (commandWord 0x07 0)
  | .setTxpwr => .command (commandWord 0x08 0)
  | .setTxrate val => .command (commandWord 0x09 val)
  | .setMod sel => .command (commandWord 0x0A (sel.setWidth 32))
  | .getMod => .command (commandWord 0x0B 0)
  | .setFraming sel => .command (commandWord 0x0C (sel.setWidth 32))
  | .setEncoding sel => .command (commandWord 0x0D (sel.setWidth 32))
  | .setSysclkLed on => .command (commandWord 0x0E (on.setWidth 32))
  | .getPincfg1 => .command (commandWord 0x0F 0)
  | .getPincfg2 => .command (commandWord 0x10 0)
  | .txByte v => .command (commandWord 0x11 (v.setWidth 32))
  | .autorange => .command (commandWord 0x12 0)
  | .frameRead addr => .frame (encodeFrame addr .read)
  | .frameWrite addr data => .frame (encodeFrame addr (.write data))

/-- What the decoder reads from an instruction whose bits are `w`, `nbits` of them: 16 for a wire frame, 40 for a
command word, the two lengths of the table. -/
def decodeTableWord (nbits w : Nat) : Option Instr :=
  if nbits = 16 then (decodeFrame (BitVec.ofNat 16 w)).toOption
  else if nbits = 40 then (decodeCommand (BitVec.ofNat 40 w)).toOption
  else none

end Sys2Proof
end

