-- ==== Sys2Proof/Machine/Ops.lean ====
section
/-! DEFINITION. The named operations: the downstream calls, the transaction engine (40_framer.md R104 to R107), ending a
command with a response or an error (60_exceptions.md R155), the command port (10_state.md R27) and reset
(70_reset_and_hazards.md R170). -/

namespace Sys2Proof.Machine

open Sys2Proof

/-! ### Downstream calls -/

/-- The answer to the next drive: the scripted one, or a free one (R17). -/
def driveAnswer (s : State) : DriveAnswer :=
  match s.env.drives with
  | a :: _ => a
  | [] => Config.freeDrive s.env.driveCalls

/-- The answer to the next exchange: the scripted one, or a free one (R16, R18). -/
def exchangeAnswer (s : State) : ExchangeAnswer :=
  match s.env.exchanges with
  | a :: _ => a
  | [] => Config.freeExchange s.env.exchangeCalls

/-- The chip-select level after a drive (R106). -/
def csAfter : Drive → DriveResult → CsLevel
  | .low, .ok => .low
  | .high, .ok => .high
  | _, .err => .unknown

/-- The effect of a drive that returned `r`: the event, and `cs` (R106). -/
def doDrive (d : Drive) (r : DriveResult) (s : State) : State :=
  { s with
    cs := csAfter d r
    env := { s.env with
      drives := s.env.drives.tail
      driveCalls := s.env.driveCalls + 1
      trace := s.env.trace ++ [.drive d r] } }

/-- The effect of an exchange that sent `out` and returned a byte, or `none` for Err: the event. `cs` is unchanged
(R106). -/
def doExchange (out : Byte) (received : Option Byte) (s : State) : State :=
  { s with
    env := { s.env with
      exchanges := s.env.exchanges.tail
      exchangeCalls := s.env.exchangeCalls + 1
      trace := s.env.trace ++ [.exchange out received] } }

/-- The command `i` is in progress: `k` events performed, these locals (R15). -/
def setBusy (i : Instr) (k : Nat) (l : Locals) (s : State) : State := { s with phase := .busy i k l }

/-- The poll index takes a value (R23). -/
def setPoll (poll : Nat) (s : State) : State := { s with poll := poll }

/-! ### Ending a command -/

/-- A response with code OK and no payload (R66). -/
def okResponse : Response := { code := .ok, sv := false, status := 0, data := 0 }

/-- A response with code OK and a result value (R66). -/
def dataResponse (data : BitVec 32) : Response := { code := .ok, sv := false, status := 0, data := data }

/-- A response with code OK, a valid status byte and a result value (R66). -/
def statusResponse (status : Byte) (data : BitVec 32) : Response :=
  { code := .ok, sv := true, status := status, data := data }

/-- An error response: sv = 0, status = 0, and `data` 0 but for UnrecognizedState (R66, R151). -/
def errorResponse (code : Code) (data : BitVec 32) : Response :=
  { code := code, sv := false, status := 0, data := data }

/-- A command finishes by writing `resp` and returning to Idle (R15). -/
def finish (r : Response) (s : State) : State := { s with phase := .idle, resp := some r }

/-- `raise E` (60_exceptions.md R155): the command's response is the error and the phase returns to Idle. Nothing is
saved elsewhere, and no handler runs. -/
def raise (code : Code) (data : BitVec 32) (s : State) : State := finish (errorResponse code data) s

/-! ### The transaction engine -/

/-- What a command's own pseudocode does when no transaction is in flight. -/
inductive Action where
  /-- It starts `Transact(addr, mode)`, with this poll index and these locals. -/
  | transact (poll : Nat) (locals : Locals) (addr : Byte) (mode : AccessMode)
  /-- It returns a response. -/
  | respond (poll : Nat) (r : Response)
  /-- It raises an error. -/
  | raise (poll : Nat) (code : Code) (data : BitVec 32)
deriving DecidableEq, Repr

/-- Steps 1 and 2 of Transact (R104): drive chip-select Low and build the frame; on Err the restore drive is next.
A drive that never returns leaves the state as it is. -/
def beginTransact (i : Instr) (poll k : Nat) (l : Locals) (addr : Byte) (mode : AccessMode) (s : State) : State :=
  match driveAnswer s with
  | .never => s
  | .returns .ok =>
    setBusy i (k + 1) { l with point := .sendHigh, frame := encodeFrame addr mode } (setPoll poll (doDrive .low .ok s))
  | .returns .err =>
    setBusy i (k + 1) { l with point := .restore, frame := encodeFrame addr mode } (setPoll poll (doDrive .low .err s))

/-- Step 3 of Transact (R104): exchange the high byte; the byte received is the status byte. -/
def exchangeHigh (i : Instr) (k : Nat) (l : Locals) (s : State) : State :=
  match exchangeAnswer s with
  | .never => s
  | .ok b => setBusy i (k + 1) { l with point := .sendLow, status := b } (doExchange (frameHigh l.frame) (some b) s)
  | .err => setBusy i (k + 1) { l with point := .restore } (doExchange (frameHigh l.frame) none s)

/-- Step 4 of Transact (R104): exchange the low byte; the byte received is the data byte. -/
def exchangeLow (i : Instr) (k : Nat) (l : Locals) (s : State) : State :=
  match exchangeAnswer s with
  | .never => s
  | .ok b => setBusy i (k + 1) { l with point := .release, data := b } (doExchange (frameLow l.frame) (some b) s)
  | .err => setBusy i (k + 1) { l with point := .restore } (doExchange (frameLow l.frame) none s)

/-- Steps 5 and 6 of Transact (R104): drive chip-select High and return Ok(s, d); on Err there is no second drive
(R105). -/
def releaseCs (i : Instr) (k : Nat) (l : Locals) (s : State) : State :=
  match driveAnswer s with
  | .never => s
  | .returns .ok => setBusy i (k + 1) { l with point := .between, txns := l.txns + 1 } (doDrive .high .ok s)
  | .returns .err => setBusy i (k + 1) { l with point := .failed } (doDrive .high .err s)

/-- RestoreCs (R104, R105): one CsHigh; its outcome is recorded in `cs` and changes nothing else. -/
def restoreCs (i : Instr) (k : Nat) (l : Locals) (s : State) : State :=
  match driveAnswer s with
  | .never => s
  | .returns r => setBusy i (k + 1) { l with point := .failed } (doDrive .high r s)

/-- What a command does when no transaction is in flight: exactly one event, or its end (R15). -/
def act (i : Instr) (k : Nat) (a : Action) (s : State) : State :=
  match a with
  | .transact poll l addr mode => beginTransact i poll k l addr mode s
  | .respond poll r => finish r (setPoll poll s)
  | .raise poll code data => raise code data (setPoll poll s)

/-- One step of a Busy command: "exactly one downstream event or finishes the command" (R15). A transaction in flight
goes on; a failed one ends the command with BusFault (60_exceptions.md R152); otherwise the command's own pseudocode
`plan` says what is next. -/
def advance (i : Instr) (plan : Nat → Locals → Action) (k : Nat) (l : Locals) (s : State) : State :=
  match l.point with
  | .between => act i k (plan s.poll l) s
  | .sendHigh => exchangeHigh i k l s
  | .sendLow => exchangeLow i k l s
  | .release => releaseCs i k l s
  | .restore => restoreCs i k l s
  | .failed => raise .busFault 0 s

/-! ### The command port -/

/-- Acceptance moves the block to Busy with k = 0 (R27). -/
def accept (i : Instr) (s : State) : State := setBusy i 0 Locals.fresh s

/-- One step of the instruction `i` whose pseudocode is `plan`: accepted first where the block is Idle with no response
held, continued where it is the command in progress (R15, R27). -/
def runCommand (i : Instr) (plan : Nat → Locals → Action) (s : State) : Host.Outcome State Fault Refusal :=
  match s.phase with
  | .idle =>
    match s.resp with
    | none => .next (advance i plan 0 Locals.fresh (accept i s))
    | some _ => .refused .responseHeld
  | .busy j k l => if j = i then .next (advance i plan k l s) else .refused .interleaved

/-- The host takes the held response, which empties `resp` (R27). -/
def takeResponse (r : Response) (s : State) : State :=
  { s with resp := none, env := { s.env with taken := s.env.taken ++ [r] } }

/-- The word on the command port has been read (R27). -/
def dropCommand (ws : List CommandWord) (s : State) : State := { s with env := { s.env with cmds := ws } }

/-- Reset (70_reset_and_hazards.md R170, R171): the four fields take their reset values, a command in progress is
abandoned with no response and no drive, and nothing is done to the chip. -/
def blockReset (s : State) : State :=
  { s with cs := .high, phase := .idle, poll := 0, resp := none, env := { s.env with resetLine := false } }

/-! ### Plans of the commands of one transaction -/

/-- The pseudocode of a command of one transaction (41_config_ops.md R110): Transact, then the response computed from
the status and data bytes it returned. -/
def oneTransaction (addr : Byte) (mode : AccessMode) (result : Byte → Byte → Response) (poll : Nat) (l : Locals) : Action :=
  if l.txns = 0 then .transact poll l addr mode else .respond poll (result l.status l.data)

/-- The pseudocode of SET_MOD, SET_FRAMING and SET_ENCODING (R116, R118, R119): the selector check before any event,
then 0x00 written. -/
def selectorCommand (addr : Byte) (sel : Byte) (poll : Nat) (l : Locals) : Action :=
  if sel ≠ 0 then .raise poll .unsupportedMode 0
  else oneTransaction addr (.write 0x00) (fun _ _ => okResponse) poll l

end Sys2Proof.Machine
end

