-- ==== Sys2Proof/Machine/AutoRanging.lean ====
section
/-! DEFINITION. AUTORANGE, the VCO auto-ranging FSM (43_autoranging.md R140 to R148). -/

namespace Sys2Proof.Machine

open Sys2Proof

/-- The transition after a poll read `v` (R145): busy is tested first; the poll index counts the reads that were
busy (R23), and POLL_LIMIT of them end the command with AutoRangingTimeout (R143). -/
def afterPoll (poll : Nat) (l : Locals) : Action :=
  if rangingBusy l.data then
    if poll + 1 < Config.pollLimit then .transact (poll + 1) l (regAddr .pllranging) .read
    else .raise (poll + 1) .autoRangingTimeout 0
  else if rangingErr l.data then .raise poll .autoRangingError 0
  else .respond poll (dataResponse (BitVec.ofNat 32 poll))

/-- The pseudocode of AUTORANGE (R141): the start write, then the polls from index 0. -/
def autorangePlan (poll : Nat) (l : Locals) : Action :=
  match l.txns with
  | 0 => .transact poll l (regAddr .pllranging) (.write Config.rangingStart)
  | 1 => .transact 0 l (regAddr .pllranging) .read
  | _ => afterPoll poll l

/-- AUTORANGE (R141). -/
def execAutorange (s : State) : Host.Outcome State Fault Refusal :=
  runCommand .autorange autorangePlan s

end Sys2Proof.Machine
end

