-- ==== Sys2Proof/Machine/ConfigOps.lean ====
section
/-! DEFINITION. The single-register configuration commands (41_config_ops.md R110 to R123). -/

namespace Sys2Proof.Machine

open Sys2Proof

/-- The response of the commands that return the byte read, in data[7:0] (R111, R121, R122). -/
def readResponse (_status data : Byte) : Response := dataResponse (data.setWidth 32)

/-- The response of the commands that return nothing beyond OK (R110). -/
def writeResponse (_status _data : Byte) : Response := okResponse

/-- GET_SCRATCH (R111). -/
def execGetScratch (s : State) : Host.Outcome State Fault Refusal :=
  runCommand .getScratch (oneTransaction (regAddr .scratch) .read readResponse) s

/-- SET_SCRATCH (R112). -/
def execSetScratch (v : Byte) (s : State) : Host.Outcome State Fault Refusal :=
  runCommand (.setScratch v) (oneTransaction (regAddr .scratch) (.write v) writeResponse) s

/-- The byte written to PWRMODE: the mode's code zero-extended (30_encoding.md R60). -/
def setPwrmode (mode : BitVec 4) (poll : Nat) (l : Locals) : Action :=
  oneTransaction (regAddr .pwrmode) (.write (mode.setWidth 8)) writeResponse poll l

/-- SET_PWRMODE POWERDOWN (R113, R60). -/
def execSetPwrmodePowerdown (s : State) : Host.Outcome State Fault Refusal :=
  runCommand .setPwrmodePowerdown (setPwrmode 0x0) s

/-- SET_PWRMODE VREGON (R113, R60). -/
def execSetPwrmodeVregon (s : State) : Host.Outcome State Fault Refusal :=
  runCommand .setPwrmodeVregon (setPwrmode 0x4) s

/-- SET_PWRMODE STANDBY (R113, R60). -/
def execSetPwrmodeStandby (s : State) : Host.Outcome State Fault Refusal :=
  runCommand .setPwrmodeStandby (setPwrmode 0x5) s

/-- SET_PWRMODE SYNTHTX (R113, R60). -/
def execSetPwrmodeSynthtx (s : State) : Host.Outcome State Fault Refusal :=
  runCommand .setPwrmodeSynthtx (setPwrmode 0xC) s

/-- SET_PWRMODE FULLTX (R113, R60). -/
def execSetPwrmodeFulltx (s : State) : Host.Outcome State Fault Refusal :=
  runCommand .setPwrmodeFulltx (setPwrmode 0xD) s

/-- SET_PLLLOOP (R114). -/
def execSetPllloop (flt cpi : BitVec 2) (bs fs : BitVec 1) (s : State) : Host.Outcome State Fault Refusal :=
  runCommand (.setPllloop flt cpi bs fs)
    (oneTransaction (regAddr .pllloop) (.write (packPllLoop flt cpi bs fs)) writeResponse) s

/-- SET_TXPWR (R115, R63): the fixed code 0x0F. -/
def execSetTxpwr (s : State) : Host.Outcome State Fault Refusal :=
  runCommand .setTxpwr (oneTransaction (regAddr .txpwr) (.write 0x0F) writeResponse) s

/-- SET_MOD (R116). -/
def execSetMod (sel : Byte) (s : State) : Host.Outcome State Fault Refusal :=
  runCommand (.setMod sel) (selectorCommand (regAddr .modulation) sel) s

/-- The pseudocode of GET_MOD (R117): 0x00 is on-off keying, any other byte is an unrecognized state. -/
def getModPlan (poll : Nat) (l : Locals) : Action :=
  if l.txns = 0 then .transact poll l (regAddr .modulation) .read
  else if l.data = 0x00 then .respond poll (dataResponse 0)
  else .raise poll .unrecognizedState (l.data.setWidth 32)

/-- GET_MOD (R117). -/
def execGetMod (s : State) : Host.Outcome State Fault Refusal :=
  runCommand .getMod getModPlan s

/-- SET_FRAMING (R118). -/
def execSetFraming (sel : Byte) (s : State) : Host.Outcome State Fault Refusal :=
  runCommand (.setFraming sel) (selectorCommand (regAddr .framing) sel) s

/-- SET_ENCODING (R119). -/
def execSetEncoding (sel : Byte) (s : State) : Host.Outcome State Fault Refusal :=
  runCommand (.setEncoding sel) (selectorCommand (regAddr .encoding) sel) s

/-- SET_SYSCLK_LED (R120, R63): 0x01 when ON = 1, 0x00 when ON = 0. -/
def execSetSysclkLed (on : BitVec 1) (s : State) : Host.Outcome State Fault Refusal :=
  runCommand (.setSysclkLed on)
    (oneTransaction (regAddr .pincfg1) (.write (if on = 1 then 0x01 else 0x00)) writeResponse) s

/-- GET_PINCFG1 (R121). -/
def execGetPincfg1 (s : State) : Host.Outcome State Fault Refusal :=
  runCommand .getPincfg1 (oneTransaction (regAddr .pincfg1) .read readResponse) s

/-- GET_PINCFG2 (R122). -/
def execGetPincfg2 (s : State) : Host.Outcome State Fault Refusal :=
  runCommand .getPincfg2 (oneTransaction (regAddr .pincfg2) .read readResponse) s

/-- TX_BYTE (R123): the response carries the status byte with sv = 1 and no data. -/
def execTxByte (v : Byte) (s : State) : Host.Outcome State Fault Refusal :=
  runCommand (.txByte v)
    (oneTransaction (regAddr .fifodata) (.write v) (fun status _ => statusResponse status 0)) s

end Sys2Proof.Machine
end

