-- ==== Sys2Proof/Machine/Framer.lean ====
section
/-! DEFINITION. EXEC (40_framer.md R108) and the wire frames of R101, R102. -/

namespace Sys2Proof.Machine

open Sys2Proof

/-- The response of EXEC: the raw status byte with sv = 1 and the data byte (R108). -/
def execResponse (status data : Byte) : Response := statusResponse status (data.setWidth 32)

/-- EXEC.R (R108). -/
def execExecR (addr : Byte) (s : State) : Host.Outcome State Fault Refusal :=
  runCommand (.execR addr) (oneTransaction addr .read execResponse) s

/-- EXEC.W (R108). -/
def execExecW (addr data : Byte) (s : State) : Host.Outcome State Fault Refusal :=
  runCommand (.execW addr data) (oneTransaction addr (.write data) execResponse) s

/-- FRAME.READ (R101): the transaction that this frame frames (R104). Log entry 8. -/
def execFrameRead (addr : Byte) (s : State) : Host.Outcome State Fault Refusal :=
  runCommand (.frameRead addr) (oneTransaction addr .read execResponse) s

/-- FRAME.WRITE (R102): the transaction that this frame frames (R104). Log entry 8. -/
def execFrameWrite (addr data : Byte) (s : State) : Host.Outcome State Fault Refusal :=
  runCommand (.frameWrite addr data) (oneTransaction addr (.write data) execResponse) s

end Sys2Proof.Machine
end

