-- ==== Sys2Proof/Machine/Quantization.lean ====
section
/-! DEFINITION. SET_FREQ, GET_FREQ and SET_TXRATE (42_quantization.md R132 to R134). -/

namespace Sys2Proof.Machine

open Sys2Proof

/-- The pseudocode of SET_FREQ (R132): the word is computed, then its four bytes are written, most significant
first. -/
def setFreqPlan (val : BitVec 32) (poll : Nat) (l : Locals) : Action :=
  match l.txns with
  | 0 => .transact poll { l with word := freqWord val } (regAddr .freq3) (.write (wordByte (freqWord val) 3))
  | 1 => .transact poll l (regAddr .freq2) (.write (wordByte l.word 2))
  | 2 => .transact poll l (regAddr .freq1) (.write (wordByte l.word 1))
  | 3 => .transact poll l (regAddr .freq0) (.write (wordByte l.word 0))
  | _ => .respond poll okResponse

/-- SET_FREQ (R132). -/
def execSetFreq (val : BitVec 32) (s : State) : Host.Outcome State Fault Refusal :=
  runCommand (.setFreq val) (setFreqPlan val) s

/-- The byte of the transaction just completed joins the bytes already read. -/
def keepByte (l : Locals) : Locals := { l with bytes := l.bytes ++ [l.data] }

/-- The pseudocode of GET_FREQ (R133): four reads, FREQ3 first, reassembled big-endian. -/
def getFreqPlan (poll : Nat) (l : Locals) : Action :=
  match l.txns with
  | 0 => .transact poll l (regAddr .freq3) .read
  | 1 => .transact poll (keepByte l) (regAddr .freq2) .read
  | 2 => .transact poll (keepByte l) (regAddr .freq1) .read
  | 3 => .transact poll (keepByte l) (regAddr .freq0) .read
  | _ => .respond poll (dataResponse (assemble (keepByte l).bytes))

/-- GET_FREQ (R133). -/
def execGetFreq (s : State) : Host.Outcome State Fault Refusal :=
  runCommand .getFreq getFreqPlan s

/-- The pseudocode of SET_TXRATE (R134): the 24-bit word's three bytes are written, most significant first. -/
def setTxratePlan (val : BitVec 32) (poll : Nat) (l : Locals) : Action :=
  match l.txns with
  | 0 =>
    .transact poll { l with word := (rateWord val).setWidth 32 } (regAddr .txratehi)
      (.write (wordByte ((rateWord val).setWidth 32) 2))
  | 1 => .transact poll l (regAddr .txratemid) (.write (wordByte l.word 1))
  | 2 => .transact poll l (regAddr .txratelo) (.write (wordByte l.word 0))
  | _ => .respond poll okResponse

/-- SET_TXRATE (R134). -/
def execSetTxrate (val : BitVec 32) (s : State) : Host.Outcome State Fault Refusal :=
  runCommand (.setTxrate val) (setTxratePlan val) s

end Sys2Proof.Machine
end

