-- ==== Sys2Proof/Machine/Dispatch.lean ====
section
/-! DEFINITION. Dispatch: one arm per constructor of Instr. -/

namespace Sys2Proof.Machine

/-- One step of an instruction: it is accepted where the block is Idle, and continued where it is in progress. -/
def exec (i : Instr) (s : State) : Host.Outcome State Fault Refusal :=
  match i with
  | .execR addr => Sys2Proof.Machine.execExecR addr s
  | .execW addr data => Sys2Proof.Machine.execExecW addr data s
  | .getScratch => Sys2Proof.Machine.execGetScratch s
  | .setScratch v => Sys2Proof.Machine.execSetScratch v s
  | .setPwrmodePowerdown => Sys2Proof.Machine.execSetPwrmodePowerdown s
  | .setPwrmodeVregon => Sys2Proof.Machine.execSetPwrmodeVregon s
  | .setPwrmodeStandby => Sys2Proof.Machine.execSetPwrmodeStandby s
  | .setPwrmodeSynthtx => Sys2Proof.Machine.execSetPwrmodeSynthtx s
  | .setPwrmodeFulltx => Sys2Proof.Machine.execSetPwrmodeFulltx s
  | .setPllloop flt cpi bs fs => Sys2Proof.Machine.execSetPllloop flt cpi bs fs s
  | .setFreq val => Sys2Proof.Machine.execSetFreq val s
  | .getFreq => Sys2Proof.Machine.execGetFreq s
  | .setTxpwr => Sys2Proof.Machine.execSetTxpwr s
  | .setTxrate val => Sys2Proof.Machine.execSetTxrate val s
  | .setMod sel => Sys2Proof.Machine.execSetMod sel s
  | .getMod => Sys2Proof.Machine.execGetMod s
  | .setFraming sel => Sys2Proof.Machine.execSetFraming sel s
  | .setEncoding sel => Sys2Proof.Machine.execSetEncoding sel s
  | .setSysclkLed on => Sys2Proof.Machine.execSetSysclkLed on s
  | .getPincfg1 => Sys2Proof.Machine.execGetPincfg1 s
  | .getPincfg2 => Sys2Proof.Machine.execGetPincfg2 s
  | .txByte v => Sys2Proof.Machine.execTxByte v s
  | .autorange => Sys2Proof.Machine.execAutorange s
  | .frameRead addr => Sys2Proof.Machine.execFrameRead addr s
  | .frameWrite addr data => Sys2Proof.Machine.execFrameWrite addr data s

end Sys2Proof.Machine
end

