-- ==== Sys2Proof/Machine/Step.lean ====
section
/-! DEFINITION. The step: reset, the command in progress, the response port, the command port, in that order. -/

namespace Sys2Proof.Machine

open Sys2Proof

/-- One step. A Busy block runs its command (10_state.md R15). An Idle block with a response held waits for the host to
take it; with none held it accepts the word on the command port (R27), and a word that spells no command is answered
with IllegalCommand and no event (30_encoding.md R59). With nothing to do it waits. The reset input comes before all
(70_reset_and_hazards.md R170). -/
def step (s : State) : Host.Outcome State Fault Refusal :=
  if s.env.resetLine then .next (blockReset s)
  else
    match s.phase with
    | .busy i _ _ => exec i s
    | .idle =>
      match s.resp with
      | some r => if s.env.hostReady then .next (takeResponse r s) else .next s
      | none =>
        match s.env.cmds with
        | [] => .next s
        | w :: ws =>
          match decodeCommand w with
          | .ok i => exec i (dropCommand ws s)
          | .error _ => .next (raise .illegalCommand 0 (dropCommand ws s))

/-- `s` with the instruction of these bits where the next step takes its instruction: a command word on the command
port of an Idle block with no response held (R27); a wire frame as the instruction in progress, of which nothing has
happened yet (log entry 8). -/
def State.withFetchWord (s : State) (nbits w : Nat) : State :=
  if nbits = 16 then
    match decodeFrame (BitVec.ofNat 16 w) with
    | .ok i => { accept i s with resp := none, env := { s.env with resetLine := false } }
    | .error _ => s
  else
    { s with
      phase := .idle, resp := none
      env := { s.env with resetLine := false, cmds := BitVec.ofNat 40 w :: s.env.cmds } }

end Sys2Proof.Machine
end

