-- ==== Sys2Proof/Machine/Flags.lean ====
section
/-! DEFINITION. The status decoder (40_framer.md R103), the only flag set the block produces (10_state.md R22). -/

namespace Sys2Proof.Machine

open Sys2Proof

/-- The decoded status record (R22). -/
structure Status where
  pllLock : Bool
  fifoOver : Bool
  fifoUnder : Bool
  fifoFull : Bool
  fifoEmpty : Bool
  fifoStatus : BitVec 2
deriving DecidableEq, Repr

/-- DecodeStatus (R103) under given flag positions: `fifo_status` is bits 7:6, a flag is true exactly when its bit is 1
(30_encoding.md R53, R54). -/
def decodeStatusAt (pos : StatusFlag → Fin 8) (s : Byte) : Status :=
  { pllLock := s.getLsbD (pos .pllLock).val
    fifoOver := s.getLsbD (pos .fifoOver).val
    fifoUnder := s.getLsbD (pos .fifoUnder).val
    fifoFull := s.getLsbD (pos .fifoFull).val
    fifoEmpty := s.getLsbD (pos .fifoEmpty).val
    fifoStatus := s.extractLsb' 6 2 }

/-- DecodeStatus (R103) under the open parameter `STATUS_POS`. -/
def decodeStatus (s : Byte) : Status := decodeStatusAt Config.statusPos s

/-- The decoded status that a response carries: its `status` byte is valid when `sv` is 1 (30_encoding.md R66). -/
def responseStatus (r : Response) : Option Status := if r.sv then some (decodeStatus r.status) else none

end Sys2Proof.Machine
end

