-- ==== Sys2Proof/Safety.lean ====
section
/-! DEFINITION. The terms of the claims: runs, what a completed command leaves, the invariants of the block, the
chip-select discipline of the event trace, and the rows of the opcode table. -/

namespace Sys2Proof.Machine

open Sys2Proof

/-! ### Runs -/

/-- `n` steps of the machine. -/
def run (n : Nat) (s : State) : Host.Outcome State Fault Refusal := Host.Core.run Sys2Proof.core n s

/-- One completed transaction as the exchange port shows it: the two bytes sent and the two received. -/
structure Txn where
  sentHigh : Byte
  sentLow : Byte
  status : Byte
  data : Byte
deriving DecidableEq, Repr

/-- The four events of a completed transaction, in order (40_framer.md R104). -/
def txnEvents (t : Txn) : List Event :=
  [.drive .low .ok, .exchange t.sentHigh (some t.status), .exchange t.sentLow (some t.data), .drive .high .ok]

/-- `n` drives that return Ok. -/
def okDrives (n : Nat) : List DriveAnswer := List.replicate n (.returns .ok)

/-- The exchange answers that give these transactions their received bytes. -/
def okExchanges (txs : List Txn) : List ExchangeAnswer := txs.flatMap fun t => [.ok t.status, .ok t.data]

/-- The block may take a command (10_state.md R27): Idle, no response held; and no reset is arriving. -/
def Accepting (s : State) : Prop := s.phase = .idle ∧ s.resp = none ∧ s.env.resetLine = false

/-- The collaborators answer the coming calls as these transactions need them, all Ok; `ds` and `es` are the answers
scripted after them. -/
def Answers (s : State) (txs : List Txn) (ds : List DriveAnswer) (es : List ExchangeAnswer) : Prop :=
  s.env.drives = okDrives (2 * txs.length) ++ ds ∧ s.env.exchanges = okExchanges txs ++ es

/-- The state in which a command that performed these transactions, with no failure, and then ended with `r` leaves the
machine: nothing else differs from `s` but `poll`, which AUTORANGE leaves at `poll`. -/
def afterCommand (s : State) (txs : List Txn) (poll : Nat) (r : Response) (ds : List DriveAnswer)
    (es : List ExchangeAnswer) : State :=
  { cs := .high
    phase := .idle
    poll := poll
    resp := some r
    env := { s.env with
      drives := ds
      exchanges := es
      driveCalls := s.env.driveCalls + 2 * txs.length
      exchangeCalls := s.env.exchangeCalls + 2 * txs.length
      trace := s.env.trace ++ txs.flatMap txnEvents } }

/-- The state in which a command leaves the machine whose last transaction failed: `txs` were completed, then the events
`tail` came, of which `nd` were drives and `nx` exchanges; the last left the line at `cs`. -/
def afterBusFault (s : State) (txs : List Txn) (tail : List Event) (nd nx : Nat) (cs : CsLevel) (poll : Nat)
    (ds : List DriveAnswer) (es : List ExchangeAnswer) : State :=
  { cs := cs
    phase := .idle
    poll := poll
    resp := some { code := .busFault, sv := false, status := 0, data := 0 }
    env := { s.env with
      drives := ds
      exchanges := es
      driveCalls := s.env.driveCalls + 2 * txs.length + nd
      exchangeCalls := s.env.exchangeCalls + 2 * txs.length + nx
      trace := s.env.trace ++ txs.flatMap txnEvents ++ tail } }

/-- The instruction completes: from every state that accepts it, with the collaborators answering Ok, `exec` answers a next
state, its first event, and the machine's further steps perform these transactions, four events each, and leave exactly
the response `r`, nothing else of the state changed. -/
def CompletesWith (i : Instr) (txs : List Txn) (r : Response) : Prop :=
  ∀ (s : State) (ds : List DriveAnswer) (es : List ExchangeAnswer), Accepting s → Answers s txs ds es →
    ∃ s1, exec i s = .next s1 ∧ run (4 * txs.length) s1 = .next (afterCommand s txs s.poll r ds es)

/-- The same state with another instruction named as the one in progress. -/
def asCommand (j : Instr) (s : State) : State :=
  match s.phase with
  | .idle => s
  | .busy _ k l => { s with phase := .busy j k l }

/-- The command of one EXEC access (40_framer.md R108). -/
def execOf (addr : Byte) : AccessMode → Instr
  | .read => .execR addr
  | .write v => .execW addr v

/-- The wire frame of one access (R101, R102). -/
def frameOf (addr : Byte) : AccessMode → Instr
  | .read => .frameRead addr
  | .write v => .frameWrite addr v

/-- The two bytes an access sends (R101, R102): the direction bit over the address, then the data or zero. -/
def sentBytes (addr : Byte) : AccessMode → Byte × Byte
  | .read => (addr, 0x00)
  | .write v => (0x80#8 ||| addr, v)

/-- The first transaction of a command, as its own rule gives it (40_framer.md R108, 41_config_ops.md R111 to R123,
42_quantization.md R132 to R134, 43_autoranging.md R142): none where a selector is unsupported. -/
def firstAccess : Instr → Option (Byte × AccessMode)
  | .execR addr => some (addr, .read)
  | .execW addr data => some (addr, .write data)
  | .getScratch => some (0x01, .read)
  | .setScratch v => some (0x01, .write v)
  | .setPwrmodePowerdown => some (0x02, .write 0x00)
  | .setPwrmodeVregon => some (0x02, .write 0x04)
  | .setPwrmodeStandby => some (0x02, .write 0x05)
  | .setPwrmodeSynthtx => some (0x02, .write 0x0C)
  | .setPwrmodeFulltx => some (0x02, .write 0x0D)
  | .setPllloop flt cpi bs fs => some (0x2C, .write (packPllLoop flt cpi bs fs))
  | .setFreq val => some (0x20, .write ((freqWord val).extractLsb' 24 8))
  | .getFreq => some (0x20, .read)
  | .setTxpwr => some (0x30, .write 0x0F)
  | .setTxrate val => some (0x31, .write ((rateWord val).extractLsb' 16 8))
  | .setMod sel => if sel = 0 then some (0x10, .write 0x00) else none
  | .getMod => some (0x10, .read)
  | .setFraming sel => if sel = 0 then some (addrFraming, .write 0x00) else none
  | .setEncoding sel => if sel = 0 then some (addrEncoding, .write 0x00) else none
  | .setSysclkLed on => some (0x0C, .write (if on = 1 then 0x01 else 0x00))
  | .getPincfg1 => some (0x0C, .read)
  | .getPincfg2 => some (addrPincfg2, .read)
  | .txByte v => some (0x05, .write v)
  | .autorange => some (0x2D, .write 0x08)
  | .frameRead addr => some (addr, .read)
  | .frameWrite addr data => some (addr, .write data)

/-- The quantized word a command computes before its first transaction (R132, R134). -/
def firstWord (i : Instr) : BitVec 32 :=
  match i with
  | .setFreq val => freqWord val
  | .setTxrate val => (rateWord val).setWidth 32
  | _ => 0

/-! ### The invariant of the block's state -/

/-- The most transactions a command performs: its pseudocode's own count (R110, R132 to R134, R143). -/
def maxTxns : Instr → Nat
  | .execR _ => 1
  | .execW _ _ => 1
  | .getScratch => 1
  | .setScratch _ => 1
  | .setPwrmodePowerdown => 1
  | .setPwrmodeVregon => 1
  | .setPwrmodeStandby => 1
  | .setPwrmodeSynthtx => 1
  | .setPwrmodeFulltx => 1
  | .setPllloop _ _ _ _ => 1
  | .setFreq _ => 4
  | .getFreq => 4
  | .setTxpwr => 1
  | .setTxrate _ => 3
  | .setMod sel => if sel = 0 then 1 else 0
  | .getMod => 1
  | .setFraming sel => if sel = 0 then 1 else 0
  | .setEncoding sel => if sel = 0 then 1 else 0
  | .setSysclkLed _ => 1
  | .getPincfg1 => 1
  | .getPincfg2 => 1
  | .txByte _ => 1
  | .autorange => Config.pollLimit + 1
  | .frameRead _ => 1
  | .frameWrite _ _ => 1

/-- A frame the block emits: DATA = 0 when DIR = 0 (30_encoding.md R59). -/
def emitted (f : Frame) : Prop := decodeDir f = true ∨ decodeData f = 0

/-- What holds of the event count, the completed transactions, the frame and the line at each point of a command
(R15, R104 to R106). -/
def PointInv (n k : Nat) (l : Locals) (cs : CsLevel) : Prop :=
  match l.point with
  | .between => k = 4 * l.txns ∧ l.txns ≤ n ∧ cs ≠ .low ∧ (0 < l.txns → cs = .high)
  | .sendHigh => k = 4 * l.txns + 1 ∧ l.txns < n ∧ cs = .low ∧ emitted l.frame
  | .sendLow => k = 4 * l.txns + 2 ∧ l.txns < n ∧ cs = .low ∧ emitted l.frame
  | .release => k = 4 * l.txns + 3 ∧ l.txns < n ∧ cs = .low ∧ emitted l.frame
  | .restore => 4 * l.txns + 1 ≤ k ∧ k ≤ 4 * l.txns + 3 ∧ l.txns < n ∧ cs ≠ .high
  | .failed => 4 * l.txns + 2 ≤ k ∧ k ≤ 4 * l.txns + 4 ∧ l.txns < n ∧ cs ≠ .low

/-- What holds of the values a command has computed so far: the quantized word (R132, R134), the bytes read (R133), the
poll index (R23, R145). -/
def ValuesInv (i : Instr) (l : Locals) (poll : Nat) : Prop :=
  match i with
  | .execR _ => True
  | .execW _ _ => True
  | .getScratch => True
  | .setScratch _ => True
  | .setPwrmodePowerdown => True
  | .setPwrmodeVregon => True
  | .setPwrmodeStandby => True
  | .setPwrmodeSynthtx => True
  | .setPwrmodeFulltx => True
  | .setPllloop _ _ _ _ => True
  | .setFreq val => l.point = .between ∧ l.txns = 0 ∨ l.word = freqWord val
  | .getFreq => if l.point = .between then l.bytes.length = l.txns - 1 else l.bytes.length = l.txns
  | .setTxpwr => True
  | .setTxrate val => l.point = .between ∧ l.txns = 0 ∨ l.word = (rateWord val).setWidth 32
  | .setMod _ => True
  | .getMod => True
  | .setFraming _ => True
  | .setEncoding _ => True
  | .setSysclkLed _ => True
  | .getPincfg1 => True
  | .getPincfg2 => True
  | .txByte _ => True
  | .autorange =>
    if l.point = .between then 2 ≤ l.txns → l.txns = poll + 2 ∧ poll < Config.pollLimit
    else 1 ≤ l.txns → l.txns = poll + 1 ∧ poll < Config.pollLimit
  | .frameRead _ => True
  | .frameWrite _ _ => True

/-- The invariant of the block's own state (R13 to R15, R23, R27): the poll index is in range; an Idle block has not
left the line Low; a Busy block holds no response, and its point, count and values agree. -/
def BlockInv (s : State) : Prop :=
  s.poll ≤ Config.pollLimit ∧
  match s.phase with
  | .idle => s.cs ≠ .low
  | .busy i k l => s.resp = none ∧ PointInv (maxTxns i) k l s.cs ∧ ValuesInv i l s.poll

/-- A bound on the steps a command still takes if every call returns. -/
def stepsLeft (s : State) : Nat :=
  match s.phase with
  | .idle => 0
  | .busy i _ l =>
    let left := 4 * (maxTxns i - l.txns)
    match l.point with
    | .between => left + 1
    | .sendHigh => left
    | .sendLow => left - 1
    | .release => left - 2
    | .restore => 2
    | .failed => 1

/-! ### The chip-select discipline of the event trace -/

/-- How the events so far have left the framing of a transaction (40_framer.md R104, R105, 70_reset_and_hazards.md
R174). -/
inductive Framing where
  /-- Every CsLow attempt has had its CsHigh attempt. -/
  | released
  /-- A CsLow returned Ok and `n` bytes have been exchanged since. -/
  | asserted (n : Nat)
  /-- A primitive failed: only the restore drive may follow. -/
  | spoiled
  /-- The discipline has been broken. -/
  | broken
deriving DecidableEq, Repr

/-- The framing after one more event: two exchanges between a CsLow and its CsHigh, nothing but one CsHigh after a
failure. -/
def framingStep : Framing → Event → Framing
  | .released, .drive .low .ok => .asserted 0
  | .released, .drive .low .err => .spoiled
  | .asserted 0, .exchange _ (some _) => .asserted 1
  | .asserted 1, .exchange _ (some _) => .asserted 2
  | .asserted 0, .exchange _ none => .spoiled
  | .asserted 1, .exchange _ none => .spoiled
  | .asserted 2, .drive .high _ => .released
  | .spoiled, .drive .high _ => .released
  | _, _ => .broken

/-- The framing that a trace leaves. -/
def traceFraming (tr : List Event) : Framing := tr.foldl framingStep .released

/-- The framing that each point of a command expects. -/
def expectedFraming : Phase → Framing
  | .idle => .released
  | .busy _ _ l =>
    match l.point with
    | .between => .released
    | .sendHigh => .asserted 0
    | .sendLow => .asserted 1
    | .release => .asserted 2
    | .restore => .spoiled
    | .failed => .released

/-- No reset is arriving, and the trace is framed as the phase says: in particular, paired 1:1 whenever the block is
Idle (R174). A reset in the middle of a transaction makes no restore drive (R170), so it is left out. -/
def PairingInv (s : State) : Prop :=
  s.env.resetLine = false ∧ traceFraming s.env.trace = expectedFraming s.phase

/-- The shape of every response (30_encoding.md R66, 60_exceptions.md R151): an error records nothing, but
UnrecognizedState, which records the byte read. -/
def ResponseShape (r : Response) : Prop :=
  match r.code with
  | .ok => r.sv = false → r.status = 0
  | .unrecognizedState => r.sv = false ∧ r.status = 0 ∧ 0 < r.data.toNat ∧ r.data.toNat < 256
  | _ => r.sv = false ∧ r.status = 0 ∧ r.data = 0

/-- The one place where a step reads `poll`: AUTORANGE after a completed poll (43_autoranging.md R145). -/
def readsPoll (s : State) : Prop :=
  match s.phase with
  | .idle => False
  | .busy i _ l => i = .autorange ∧ l.point = .between ∧ 2 ≤ l.txns

/-! ### The opcode table -/

/-- A row of spec/opcode_table.json: its width, and the bits fixed by `mask` at the values of `bits`. -/
structure TableRow where
  width : Nat
  bits : Nat
  mask : Nat
deriving DecidableEq, Repr

/-- The row of each constructor, as the table gives it. -/
def tableRow : Instr → TableRow
  | .execR _ => ⟨40, 0x0100000000, 0xFFFFFF80FF⟩
  | .execW _ _ => ⟨40, 0x0100008000, 0xFFFFFF8000⟩
  | .getScratch => ⟨40, 0x0200000000, 0xFFFFFFFFFF⟩
  | .setScratch _ => ⟨40, 0x0300000000, 0xFFFFFFFF00⟩
  | .setPwrmodePowerdown => ⟨40, 0x0400000000, 0xFFFFFFFFFF⟩
  | .setPwrmodeVregon => ⟨40, 0x0400000004, 0xFFFFFFFFFF⟩
  | .setPwrmodeStandby => ⟨40, 0x0400000005, 0xFFFFFFFFFF⟩
  | .setPwrmodeSynthtx => ⟨40, 0x040000000C, 0xFFFFFFFFFF⟩
  | .setPwrmodeFulltx => ⟨40, 0x040000000D, 0xFFFFFFFFFF⟩
  | .setPllloop _ _ _ _ => ⟨40, 0x0500000000, 0xFFFFFFFFC0⟩
  | .setFreq _ => ⟨40, 0x0600000000, 0xFF00000000⟩
  | .getFreq => ⟨40, 0x0700000000, 0xFFFFFFFFFF⟩
  | .setTxpwr => ⟨40, 0x0800000000, 0xFFFFFFFFFF⟩
  | .setTxrate _ => ⟨40, 0x0900000000, 0xFF00000000⟩
  | .setMod _ => ⟨40, 0x0A00000000, 0xFFFFFFFF00⟩
  | .getMod => ⟨40, 0x0B00000000, 0xFFFFFFFFFF⟩
  | .setFraming _ => ⟨40, 0x0C00000000, 0xFFFFFFFF00⟩
  | .setEncoding _ => ⟨40, 0x0D00000000, 0xFFFFFFFF00⟩
  | .setSysclkLed _ => ⟨40, 0x0E00000000, 0xFFFFFFFFFE⟩
  | .getPincfg1 => ⟨40, 0x0F00000000, 0xFFFFFFFFFF⟩
  | .getPincfg2 => ⟨40, 0x1000000000, 0xFFFFFFFFFF⟩
  | .txByte _ => ⟨40, 0x1100000000, 0xFFFFFFFF00⟩
  | .autorange => ⟨40, 0x1200000000, 0xFFFFFFFFFF⟩
  | .frameRead _ => ⟨16, 0x0000, 0x80FF⟩
  | .frameWrite _ _ => ⟨16, 0x8000, 0x8000⟩

/-- The bits of an encoded instruction as a number, with their width. -/
def encodedBits : Encoded → Nat × Nat
  | .command w => (40, w.toNat)
  | .frame f => (16, f.toNat)

/-- The bits of `e` belong to the row `r`. -/
def TableRow.admits (r : TableRow) (e : Encoded) : Prop :=
  (encodedBits e).1 = r.width ∧ (encodedBits e).2 &&& r.mask = r.bits

end Sys2Proof.Machine
end

