-- ==== Sys2Proof/Certificates/Slice0/Obligations.lean ====
section
/-! DEFINITION. The statements for the provers. Their vocabulary (runs, completed transactions, invariants) stands in
Sys2Proof/Safety.lean. -/

open Sys2Proof Sys2Proof.Machine

/-! ### Encodings -/

/-- 30_encoding.md R50, R56 to R58, R60: decoding the encoding of a well-formed instruction gives it back. -/
def Obligations.DecodeOfEncode : Prop :=
  ∀ i : Instr, i.wellFormed = true → decode (encode i) = .ok i

/-- R56 to R59, R68: a word the decoder accepts is the encoding of what it decodes to, and that is well-formed. -/
def Obligations.EncodeOfDecode : Prop :=
  ∀ (e : Encoded) (i : Instr), decode e = .ok i → encode i = e ∧ i.wellFormed = true

/-- R57 to R59, opcode_table.json: a command word decodes exactly when it lies in a row of the opcode table, and then to
an instruction of that row. -/
def Obligations.LegalWordsAreTableRows : Prop :=
  ∀ w : CommandWord,
    (∃ i, decodeCommand w = .ok i ∧ (tableRow i).admits (.command w)) ∨
    ((∃ r, decodeCommand w = .error r) ∧ ∀ i, ¬ (tableRow i).admits (.command w))

/-- R69: the command word examples, decoded and encoded. -/
def Obligations.CommandWordExamples : Prop :=
  ∀ p ∈ [((0x0200000000, .getScratch) : CommandWord × Instr), (0x030000005A, .setScratch 0x5A),
      (0x0400000005, .setPwrmodeStandby), (0x0500000026, .setPllloop 2 1 0 1), (0x0619DD1800, .setFreq 433920000),
      (0x0900002580, .setTxrate 9600), (0x0A00000000, .setMod 0), (0x0E00000001, .setSysclkLed 1),
      (0x0100002D00, .execR 0x2D), (0x010000815A, .execW 0x01 0x5A), (0x1200000000, .autorange)],
    decodeCommand p.1 = .ok p.2 ∧ encode p.2 = .command p.1

/-- R101, R102: the fields and the two bytes of read and write frames, for every 7-bit address and every byte. -/
def Obligations.FrameFields : Prop :=
  ∀ (a : BitVec 7) (v : Byte),
    let r := encodeFrame (a.setWidth 8) .read
    let w := encodeFrame (a.setWidth 8) (.write v)
    (decodeDir r = false ∧ decodeAddress r = a ∧ decodeData r = 0 ∧ frameHigh r = a.setWidth 8 ∧ frameLow r = 0) ∧
    (decodeDir w = true ∧ decodeAddress w = a ∧ decodeData w = v ∧ frameHigh w = 0x80#8 ||| a.setWidth 8 ∧
      frameLow w = v)

/-- R103, R54: DecodeStatus on all 256 bytes, under `STATUS_POS` whatever it is. -/
def Obligations.StatusDecodesByBits : Prop :=
  ∀ s : Byte,
    (decodeStatus s).fifoStatus.toNat = s.toNat / 64 ∧
    ((decodeStatus s).pllLock = true ↔ s.toNat / 2 ^ (Config.statusPos .pllLock).val % 2 = 1) ∧
    ((decodeStatus s).fifoOver = true ↔ s.toNat / 2 ^ (Config.statusPos .fifoOver).val % 2 = 1) ∧
    ((decodeStatus s).fifoUnder = true ↔ s.toNat / 2 ^ (Config.statusPos .fifoUnder).val % 2 = 1) ∧
    ((decodeStatus s).fifoFull = true ↔ s.toNat / 2 ^ (Config.statusPos .fifoFull).val % 2 = 1) ∧
    ((decodeStatus s).fifoEmpty = true ↔ s.toNat / 2 ^ (Config.statusPos .fifoEmpty).val % 2 = 1)

/-- R66, R151: the fields of the packed response, and the numbers of the codes. -/
def Obligations.PackedResponseFields : Prop :=
  (∀ r : Response,
    (packResponse r).extractLsb' 44 4 = codeBits r.code ∧ (packResponse r).extractLsb' 41 3 = 0#3 ∧
    (packResponse r).getLsbD 40 = r.sv ∧ (packResponse r).extractLsb' 32 8 = r.status ∧
    (packResponse r).extractLsb' 0 32 = r.data) ∧
  [codeBits .ok, codeBits .busFault, codeBits .autoRangingTimeout, codeBits .autoRangingError,
    codeBits .unsupportedMode, codeBits .unrecognizedState, codeBits .illegalCommand] = [0, 1, 2, 3, 4, 5, 6]

/-! ### The step and the command port -/

/-- 10_state.md R15, R27: the word on the port of an accepting block is decoded and the step is `exec` of what it
decodes to, the word taken off the port; a Busy block's step is `exec` of its command. That acceptance is part of that step
is the model's choice (log entry 1). -/
def Obligations.StepRunsTheDecodedInstruction : Prop :=
  (∀ (s : State) (w : CommandWord) (ws : List CommandWord) (i : Instr),
    Accepting s → s.env.cmds = w :: ws → decodeCommand w = .ok i →
      step s = exec i { s with env := { s.env with cmds := ws } }) ∧
  (∀ (s : State) (i : Instr) (k : Nat) (l : Locals),
    s.env.resetLine = false → s.phase = .busy i k l → step s = exec i s)

/-- R59, R159: a word that spells no command is answered with IllegalCommand at once, with no event, the line, the poll
index and everything else but the port's word unchanged. That it takes one step is the model's reading (log entry 7). -/
def Obligations.IllegalWordIsAnswered : Prop :=
  ∀ (s : State) (w : CommandWord) (ws : List CommandWord) (e : Reject),
    Accepting s → s.env.cmds = w :: ws → decodeCommand w = .error e →
      step s = .next { s with
        resp := some { code := .illegalCommand, sv := false, status := 0, data := 0 }
        env := { s.env with cmds := ws } }

/-- 60_exceptions.md R155, R162, 70_reset_and_hazards.md R178: no step ends in a fault or a refusal.
It rests on the model's readings that a hang is a wait and that refusals are only for meanings out of turn (log entries 4
and 6). -/
def Obligations.EveryStepAnswersNext : Prop :=
  ∀ s : State, ∃ t, step s = .next t

/-- R15 with R178: a step of a Busy block waits for a call that never returns and changes nothing, or performs exactly
one event and counts it, or finishes: the response is written, the phase is Idle, and there is no event. The wait and the finish as
steps are the model's choices (log entries 1 and 4). -/
def Obligations.BusyStepIsOneEventOrTheEnd : Prop :=
  ∀ (s : State) (i : Instr) (k : Nat) (l : Locals), s.env.resetLine = false → s.phase = .busy i k l →
    ∃ t, step s = .next t ∧
      ((t = s ∧ (driveAnswer s = .never ∨ exchangeAnswer s = .never)) ∨
       (∃ e l', t.env.trace = s.env.trace ++ [e] ∧ t.phase = .busy i (k + 1) l' ∧ t.resp = s.resp) ∨
       (∃ r, t = { s with phase := .idle, resp := some r, poll := t.poll }))

/-- R27: a word leaves the port only when the block is Idle with no response held, one word at a time. -/
def Obligations.CommandAcceptedOnlyWhenIdle : Prop :=
  ∀ s t : State, step s = .next t → t.env.cmds ≠ s.env.cmds →
    Accepting s ∧ ∃ w, s.env.cmds = w :: t.env.cmds

/-- R24, R27: a held response is taken whole when the host is ready, which empties `resp` and changes nothing else;
until then the block waits. The flag `hostReady` is the model's (log entry 6). -/
def Obligations.HeldResponseIsTaken : Prop :=
  ∀ (s : State) (r : Response), s.env.resetLine = false → s.phase = .idle → s.resp = some r →
    step s = .next (if s.env.hostReady then
      { s with resp := none, env := { s.env with taken := s.env.taken ++ [r] } } else s)

/-- 70_reset_and_hazards.md R183: an event happens neither while a response is held nor in the step that makes one
available, so every event of a command comes before its response, and the next command's after it is taken. -/
def Obligations.EventsComeBeforeTheResponse : Prop :=
  ∀ s t : State, BlockInv s → step s = .next t → t.env.trace ≠ s.env.trace → s.resp = none ∧ t.resp = none

/-- R27, R177, 93_implementation_defined.md U1: a meaning asked for in the middle of another command, or while a response
is held, is refused by name. The names are the model's (log entry 6). -/
def Obligations.OutOfTurnCommandsAreRefused : Prop :=
  ∀ (i : Instr) (s : State),
    (∀ (j : Instr) (k : Nat) (l : Locals), s.phase = .busy j k l → j ≠ i → exec i s = .refused .interleaved) ∧
    (∀ r : Response, s.phase = .idle → s.resp = some r → exec i s = .refused .responseHeld)

/-- 70_reset_and_hazards.md R170, 10_state.md R28: the reset state, and a reset that arrives in any state, in the middle
of a command too: no event, no response, and nothing of the trace undone. The reset input is the model's (log entry 5). -/
def Obligations.ResetLeavesTheStatedState : Prop :=
  (State.reset.cs = .high ∧ State.reset.phase = .idle ∧ State.reset.poll = 0 ∧ State.reset.resp = none) ∧
  ∀ s : State, s.env.resetLine = true →
    step s = .next { cs := .high, phase := .idle, poll := 0, resp := none, env := { s.env with resetLine := false } }

/-! ### The transaction engine -/

/-- 40_framer.md R106: what one step does to `cs`, by the event it performs; a step that performs no event and serves
no reset leaves it. -/
def Obligations.CsFollowsTheDrives : Prop :=
  ∀ s t : State, s.env.resetLine = false → step s = .next t →
    (t.env.trace = s.env.trace ∧ t.cs = s.cs) ∨
    (t.env.trace = s.env.trace ++ [.drive .low .ok] ∧ t.cs = .low) ∨
    (t.env.trace = s.env.trace ++ [.drive .high .ok] ∧ t.cs = .high) ∨
    (∃ d, t.env.trace = s.env.trace ++ [.drive d .err] ∧ t.cs = .unknown) ∨
    (∃ out b, t.env.trace = s.env.trace ++ [.exchange out b] ∧ t.cs = s.cs)

/-- R104: "Every command's chip access goes through it": while a transaction is in flight, the step does not depend on
which instruction is in progress; a wire frame of the same bits takes the very same step. -/
def Obligations.OneEngineForEveryCommand : Prop :=
  ∀ (i j : Instr) (s t : State) (k : Nat) (l : Locals), s.phase = .busy i k l → l.point ≠ .between →
    exec i s = .next t → exec j (asCommand j s) = .next (asCommand j t)

/-- R104, R108: EXEC.R and EXEC.W complete with one transaction, and return the status byte and the data byte. -/
def Obligations.ExecCompletes : Prop :=
  ∀ (addr : Byte) (m : AccessMode) (status data : Byte), isRegAddr addr = true →
    CompletesWith (execOf addr m) [⟨(sentBytes addr m).1, (sentBytes addr m).2, status, data⟩]
      { code := .ok, sv := true, status := status, data := data.setWidth 32 }

/-- R101, R102, R104: the transactions that FRAME.READ and FRAME.WRITE frame. That a frame stands alone and gives its
result as EXEC does is the model's choice (log entry 8). -/
def Obligations.WireFramesComplete : Prop :=
  ∀ (addr : Byte) (m : AccessMode) (status data : Byte), isRegAddr addr = true →
    CompletesWith (frameOf addr m) [⟨(sentBytes addr m).1, (sentBytes addr m).2, status, data⟩]
      { code := .ok, sv := true, status := status, data := data.setWidth 32 }

/-- 10_state.md R15, R27, 40_framer.md R104: the first step of every command that performs an event: `exec` answers the state
in which chip-select has been driven Low, with the frame of the command's first access built, one event counted, and
nothing else of the state changed; on Err only the restore drive is left. The initial locals and the moment at which the
frame and the word are computed are the model's choices (log entries 12 and 19). -/
def Obligations.AcceptedCommandDrivesLow : Prop :=
  ∀ (i : Instr) (s : State) (addr : Byte) (m : AccessMode) (r : DriveResult) (ds : List DriveAnswer),
    Accepting s → firstAccess i = some (addr, m) → s.env.drives = .returns r :: ds →
      exec i s = .next { s with
        cs := if r = .ok then .low else .unknown
        phase := .busy i 1 { Locals.fresh with
          point := if r = .ok then .sendHigh else .restore, frame := encodeFrame addr m, word := firstWord i }
        env := { s.env with
          drives := ds, driveCalls := s.env.driveCalls + 1, trace := s.env.trace ++ [.drive .low r] } }

/-- R105: the four failure traces of a transaction, here of EXEC: one CsHigh attempt in each, no second drive after a
failed step 5, and BusFault whatever the restore drive returns. -/
def Obligations.BusFaultTraces : Prop :=
  ∀ (addr : Byte) (m : AccessMode) (s : State) (o : DriveResult) (status data : Byte) (ds : List DriveAnswer)
    (es : List ExchangeAnswer), isRegAddr addr = true → Accepting s →
    (s.env.drives = .returns .err :: .returns o :: ds → s.env.exchanges = es →
      ∃ s1, exec (execOf addr m) s = .next s1 ∧ run 2 s1 = .next (afterBusFault s []
        [.drive .low .err, .drive .high o] 2 0 (if o = .ok then .high else .unknown) s.poll ds es)) ∧
    (s.env.drives = .returns .ok :: .returns o :: ds → s.env.exchanges = .err :: es →
      ∃ s1, exec (execOf addr m) s = .next s1 ∧ run 3 s1 = .next (afterBusFault s []
        [.drive .low .ok, .exchange (sentBytes addr m).1 none, .drive .high o]
        2 1 (if o = .ok then .high else .unknown) s.poll ds es)) ∧
    (s.env.drives = .returns .ok :: .returns o :: ds → s.env.exchanges = .ok status :: .err :: es →
      ∃ s1, exec (execOf addr m) s = .next s1 ∧ run 4 s1 = .next (afterBusFault s []
        [.drive .low .ok, .exchange (sentBytes addr m).1 (some status), .exchange (sentBytes addr m).2 none,
          .drive .high o]
        2 2 (if o = .ok then .high else .unknown) s.poll ds es)) ∧
    (s.env.drives = .returns .ok :: .returns .err :: ds → s.env.exchanges = .ok status :: .ok data :: es →
      ∃ s1, exec (execOf addr m) s = .next s1 ∧ run 4 s1 = .next (afterBusFault s []
        [.drive .low .ok, .exchange (sentBytes addr m).1 (some status), .exchange (sentBytes addr m).2 (some data),
          .drive .high .err]
        2 2 .unknown s.poll ds es))

/-- R105, R152, R155: a failure inside any transaction of any command, at any of its steps: what remains of the command
is the one restore drive, where R105 has one, and the response BusFault. A step between transactions performs no event, or
is the CsLow that fails and leaves the restore drive as the next step. -/
def Obligations.AnyFailureEndsTheCommand : Prop :=
  ∀ (i : Instr) (s : State) (k : Nat) (l : Locals) (o : DriveResult),
    s.env.resetLine = false → s.phase = .busy i k l →
    let fault : Option Response := some { code := .busFault, sv := false, status := 0, data := 0 }
    (l.point = .between → driveAnswer s = .returns .err →
      ∃ s1, exec i s = .next s1 ∧
        ((s1.phase = .idle ∧ s1.env = s.env) ∨
         (∃ l', s1.phase = .busy i (k + 1) l' ∧ l'.point = .restore ∧ s1.cs = .unknown ∧
           s1.env.trace = s.env.trace ++ [.drive .low .err]))) ∧
    (l.point = .restore → driveAnswer s = .returns o →
      ∃ s1 t, exec i s = .next s1 ∧ step s1 = .next t ∧ t.phase = .idle ∧ t.resp = fault ∧ t.poll = s.poll ∧
        t.cs = (if o = .ok then .high else .unknown) ∧ t.env.trace = s.env.trace ++ [.drive .high o]) ∧
    (l.point = .release → driveAnswer s = .returns .err →
      ∃ s1 t, exec i s = .next s1 ∧ step s1 = .next t ∧ t.phase = .idle ∧ t.resp = fault ∧ t.poll = s.poll ∧
        t.cs = .unknown ∧ t.env.trace = s.env.trace ++ [.drive .high .err]) ∧
    (l.point = .sendHigh ∨ l.point = .sendLow → exchangeAnswer s = .err → driveAnswer s = .returns o →
      ∃ s1 s2 t out, exec i s = .next s1 ∧ step s1 = .next s2 ∧ step s2 = .next t ∧ t.phase = .idle ∧
        t.resp = fault ∧ t.poll = s.poll ∧ t.cs = (if o = .ok then .high else .unknown) ∧
        out = (if l.point = .sendHigh then frameHigh l.frame else frameLow l.frame) ∧
        t.env.trace = s.env.trace ++ [.exchange out none, .drive .high o])

/-- 70_reset_and_hazards.md R178: an exchange that never answers hangs the block: however many steps follow, the state
stays, Busy with chip-select Low; a reset then ends it (R170). That the hang is a wait that leaves the state the same is the
model's reading (log entry 4), and the reset input, served first and keeping the trace and the scripts, is its choice
(log entry 5). -/
def Obligations.HangingExchangeHangs : Prop :=
  ∀ (s : State) (i : Instr) (k : Nat) (l : Locals), BlockInv s → s.env.resetLine = false → s.phase = .busy i k l →
    l.point = .sendHigh ∨ l.point = .sendLow → exchangeAnswer s = .never →
      s.cs = .low ∧ (∀ n, run n s = .next s) ∧
      step { s with env := { s.env with resetLine := true } } =
        .next { cs := .high, phase := .idle, poll := 0, resp := none, env := s.env }

/-! ### Single-register commands -/

/-- 41_config_ops.md R111, R121, R122: GET_SCRATCH, GET_PINCFG1 and GET_PINCFG2 read one register and return its byte. -/
def Obligations.ReadCommandsComplete : Prop :=
  ∀ status data : Byte,
    CompletesWith .getScratch [⟨0x01, 0x00, status, data⟩]
      { code := .ok, sv := false, status := 0, data := data.setWidth 32 } ∧
    CompletesWith .getPincfg1 [⟨0x0C, 0x00, status, data⟩]
      { code := .ok, sv := false, status := 0, data := data.setWidth 32 } ∧
    CompletesWith .getPincfg2 [⟨addrPincfg2, 0x00, status, data⟩]
      { code := .ok, sv := false, status := 0, data := data.setWidth 32 }

/-- R112, R115, R120: SET_SCRATCH, SET_TXPWR and SET_SYSCLK_LED write one register and return OK. -/
def Obligations.WriteCommandsComplete : Prop :=
  ∀ status data : Byte,
    (∀ v : Byte, CompletesWith (.setScratch v) [⟨0x81, v, status, data⟩]
      { code := .ok, sv := false, status := 0, data := 0 }) ∧
    CompletesWith .setTxpwr [⟨0xB0, 0x0F, status, data⟩] { code := .ok, sv := false, status := 0, data := 0 } ∧
    CompletesWith (.setSysclkLed 1) [⟨0x8C, 0x01, status, data⟩] { code := .ok, sv := false, status := 0, data := 0 } ∧
    CompletesWith (.setSysclkLed 0) [⟨0x8C, 0x00, status, data⟩] { code := .ok, sv := false, status := 0, data := 0 }

/-- R113, R60: the five SET_PWRMODE commands write their code, zero-extended, to PWRMODE. -/
def Obligations.SetPwrmodeCompletes : Prop :=
  ∀ status data : Byte,
    CompletesWith .setPwrmodePowerdown [⟨0x82, 0x00, status, data⟩]
      { code := .ok, sv := false, status := 0, data := 0 } ∧
    CompletesWith .setPwrmodeVregon [⟨0x82, 0x04, status, data⟩]
      { code := .ok, sv := false, status := 0, data := 0 } ∧
    CompletesWith .setPwrmodeStandby [⟨0x82, 0x05, status, data⟩]
      { code := .ok, sv := false, status := 0, data := 0 } ∧
    CompletesWith .setPwrmodeSynthtx [⟨0x82, 0x0C, status, data⟩]
      { code := .ok, sv := false, status := 0, data := 0 } ∧
    CompletesWith .setPwrmodeFulltx [⟨0x82, 0x0D, status, data⟩]
      { code := .ok, sv := false, status := 0, data := 0 }

/-- R114: SET_PLLLOOP writes the packed sub-fields to PLLLOOP. -/
def Obligations.SetPllloopCompletes : Prop :=
  ∀ (flt cpi : BitVec 2) (bs fs : BitVec 1) (status data : Byte),
    CompletesWith (.setPllloop flt cpi bs fs) [⟨0xAC, packPllLoop flt cpi bs fs, status, data⟩]
      { code := .ok, sv := false, status := 0, data := 0 }

/-- R116, R118, R119: SET_MOD OOK, SET_FRAMING RAW and SET_ENCODING NRZ write 0x00 to their register. -/
def Obligations.SelectorCommandsComplete : Prop :=
  ∀ status data : Byte,
    CompletesWith (.setMod 0) [⟨0x90, 0x00, status, data⟩] { code := .ok, sv := false, status := 0, data := 0 } ∧
    CompletesWith (.setFraming 0) [⟨0x80#8 ||| addrFraming, 0x00, status, data⟩]
      { code := .ok, sv := false, status := 0, data := 0 } ∧
    CompletesWith (.setEncoding 0) [⟨0x80#8 ||| addrEncoding, 0x00, status, data⟩]
      { code := .ok, sv := false, status := 0, data := 0 }

/-- R116, R118, R119, 60_exceptions.md R158: any other selector is answered with UnsupportedMode at once, with no event
and nothing else changed. -/
def Obligations.UnsupportedSelectorsRaise : Prop :=
  ∀ (s : State) (sel : Byte) (i : Instr), Accepting s → sel ≠ 0 →
    i ∈ [Instr.setMod sel, .setFraming sel, .setEncoding sel] →
      exec i s = .next { s with resp := some { code := .unsupportedMode, sv := false, status := 0, data := 0 } }

/-- R117, R157: GET_MOD returns 0 (OOK) for the byte 0x00, and UnrecognizedState with the byte read for any other, after a
transaction that has ended normally. -/
def Obligations.GetModDecodes : Prop :=
  ∀ status data : Byte,
    CompletesWith .getMod [⟨0x10, 0x00, status, data⟩]
      (if data = 0x00 then { code := .ok, sv := false, status := 0, data := 0 }
       else { code := .unrecognizedState, sv := false, status := 0, data := data.setWidth 32 })

/-- R123: TX_BYTE writes the byte to FIFODATA and returns the status byte of the transaction. -/
def Obligations.TxByteCompletes : Prop :=
  ∀ v status data : Byte,
    CompletesWith (.txByte v) [⟨0x85, v, status, data⟩] { code := .ok, sv := true, status := status, data := 0 }

/-! ### Parameters -/

/-- 20_memory.md R31, R32: the addresses of the named registers; the three open ones differ from every other and from
each other, and all are 7-bit. The three are opaque choices of the model's parameters (log entry 10). -/
def Obligations.RegisterAddresses : Prop :=
  (∀ r : ChipReg, isRegAddr (regAddr r) = true) ∧ (∀ r r' : ChipReg, regAddr r = regAddr r' → r = r') ∧
  [ChipReg.scratch, .pwrmode, .fifodata, .pincfg1, .modulation, .freq3, .freq2, .freq1, .freq0, .pllloop, .pllranging,
    .txpwr, .txratehi, .txratemid, .txratelo].map regAddr =
    [0x01, 0x02, 0x05, 0x0C, 0x10, 0x20, 0x21, 0x22, 0x23, 0x2C, 0x2D, 0x30, 0x31, 0x32, 0x33]

/-- 30_encoding.md R61: PackPllLoop under the default layout. -/
def Obligations.DefaultPllLoopPacking : Prop :=
  ∀ (flt cpi : BitVec 2) (bs fs : BitVec 1),
    packPllLoopAt defaultLayout flt cpi bs fs =
      (fs.setWidth 8 <<< 5) ||| (bs.setWidth 8 <<< 4) ||| (cpi.setWidth 8 <<< 2) ||| flt.setWidth 8

/-- R61: "packs four sub-fields … into one byte": under the open layout, whatever it is, each sub-field stands in the byte
at its position. That the positions fit in the byte and share no bit is the model's reading (log entry 11). -/
def Obligations.PllLoopFieldsStand : Prop :=
  ∀ (flt cpi : BitVec 2) (bs fs : BitVec 1),
    (packPllLoop flt cpi bs fs).extractLsb' pllLoopLayout.flt 2 = flt ∧
    (packPllLoop flt cpi bs fs).extractLsb' pllLoopLayout.cpi 2 = cpi ∧
    (packPllLoop flt cpi bs fs).extractLsb' pllLoopLayout.bs 1 = bs ∧
    (packPllLoop flt cpi bs fs).extractLsb' pllLoopLayout.fs 1 = fs

/-! ### Quantization -/

/-- 42_quantization.md R128: the three forms of Q, the table by the fractional part of x = v · 2^24 / CRYSTAL_HZ, and the
widths of the intermediate values on 32-bit inputs. -/
def Obligations.QuantizeIsHalfPlusCeiling : Prop :=
  ∀ v : Nat,
    let x : ℚ := (v : ℚ) * 2 ^ 24 / 16000000
    (quantize v : ℤ) = ⌈x + 1 / 2⌉ ∧
    quantize v = (2 * v * 2 ^ 24 + 3 * 16000000 - 1) / (2 * 16000000) ∧
    quantize v = (32768 * v + 46874) / 31250 ∧
    (Int.fract x ≤ 1 / 2 → (quantize v : ℤ) = ⌊x⌋ + 1) ∧ (1 / 2 < Int.fract x → (quantize v : ℤ) = ⌊x⌋ + 2) ∧
    1 ≤ quantize v ∧ (v < 2 ^ 32 → 32768 * v + 46874 < 2 ^ 48 ∧ 2 * v * 2 ^ 24 < 2 ^ 57)

/-- R131: Q is monotonic, Q(0) = 1, Q exceeds the exact value by more than 1/2 and less than 3/2, the fractional part is
never 1/2, and x is an integer exactly when 15625 divides v; FW and TW are monotonic and never 0 within their ranges. -/
def Obligations.QuantizeProperties : Prop :=
  (∀ v v' : Nat, v ≤ v' → quantize v ≤ quantize v') ∧ quantize 0 = 1 ∧
  (∀ v : Nat, let x : ℚ := (v : ℚ) * 2 ^ 24 / 16000000
    x - quantize v < -1 / 2 ∧ -3 / 2 < x - quantize v ∧ Int.fract x ≠ 1 / 2 ∧ (Int.fract x = 0 ↔ 15625 ∣ v)) ∧
  (∀ f f' : BitVec 32, f.toNat ≤ f'.toNat → f'.toNat ≤ 4095999998 →
    (freqWord f).toNat ≤ (freqWord f').toNat ∧ freqWord f ≠ 0) ∧
  (∀ r r' : BitVec 32, r.toNat ≤ r'.toNat → r'.toNat ≤ 15999998 →
    (rateWord r).toNat ≤ (rateWord r').toNat ∧ rateWord r ≠ 0)

/-- R129: FW keeps the low 32 bits of Q, which changes nothing up to 4,095,999,998 Hz. -/
def Obligations.FrequencyWordRange : Prop :=
  (∀ f : BitVec 32, (freqWord f).toNat = quantize f.toNat % 2 ^ 32 ∧
    (f.toNat ≤ 4095999998 → (freqWord f).toNat = quantize f.toNat) ∧
    (4095999999 ≤ f.toNat → 2 ^ 32 ≤ quantize f.toNat)) ∧
  freqWord 4095999999 = 0 ∧ freqWord 4096000000 = 1

/-- R130: TW keeps the low 24 bits of Q, which changes nothing up to 15,999,998 bit/s. -/
def Obligations.BitrateWordRange : Prop :=
  (∀ r : BitVec 32, (rateWord r).toNat = quantize r.toNat % 2 ^ 24 ∧
    (r.toNat ≤ 15999998 → (rateWord r).toNat = quantize r.toNat) ∧
    (15999999 ≤ r.toNat → 2 ^ 24 ≤ quantize r.toNat)) ∧
  rateWord 16000000 = 1

/-- R132, 20_memory.md R35: SET_FREQ writes the word's four bytes, most significant first, to FREQ3..FREQ0. -/
def Obligations.SetFreqCompletes : Prop :=
  ∀ (val : BitVec 32) (s3 d3 s2 d2 s1 d1 s0 d0 : Byte),
    let w := freqWord val
    CompletesWith (.setFreq val)
      [⟨0xA0, w.extractLsb' 24 8, s3, d3⟩, ⟨0xA1, w.extractLsb' 16 8, s2, d2⟩, ⟨0xA2, w.extractLsb' 8 8, s1, d1⟩,
        ⟨0xA3, w.extractLsb' 0 8, s0, d0⟩]
      { code := .ok, sv := false, status := 0, data := 0 }

/-- R133: GET_FREQ reads FREQ3..FREQ0 in that order and returns the bytes reassembled big-endian. -/
def Obligations.GetFreqCompletes : Prop :=
  ∀ s3 b3 s2 b2 s1 b1 s0 b0 : Byte,
    CompletesWith .getFreq [⟨0x20, 0, s3, b3⟩, ⟨0x21, 0, s2, b2⟩, ⟨0x22, 0, s1, b1⟩, ⟨0x23, 0, s0, b0⟩]
      { code := .ok, sv := false, status := 0
        data := (b3.setWidth 32 <<< 24) ||| (b2.setWidth 32 <<< 16) ||| (b1.setWidth 32 <<< 8) ||| b0.setWidth 32 }

/-- R134, 20_memory.md R35: SET_TXRATE writes the word's three bytes, most significant first, to TXRATEHI, TXRATEMID,
TXRATELO. -/
def Obligations.SetTxrateCompletes : Prop :=
  ∀ (val : BitVec 32) (s2 d2 s1 d1 s0 d0 : Byte),
    let w := rateWord val
    CompletesWith (.setTxrate val)
      [⟨0xB1, w.extractLsb' 16 8, s2, d2⟩, ⟨0xB2, w.extractLsb' 8 8, s1, d1⟩, ⟨0xB3, w.extractLsb' 0 8, s0, d0⟩]
      { code := .ok, sv := false, status := 0, data := 0 }

/-- R132, 70_reset_and_hazards.md R176: SET_FREQ whose write number n + 1 fails at its first exchange has written the n
registers before it and stops there with BusFault: the trace holds those n whole writes, the failed exchange and the
restore drive, and nothing after. -/
def Obligations.TornFrequencyWord : Prop :=
  ∀ (val : BitVec 32) (s : State) (n : Nat) (rs : List (Byte × Byte)) (o : DriveResult) (ds : List DriveAnswer)
    (es : List ExchangeAnswer), n < 4 → rs.length = n → Accepting s →
    let w := freqWord val
    let sent : List (Byte × Byte) :=
      [(0xA0, w.extractLsb' 24 8), (0xA1, w.extractLsb' 16 8), (0xA2, w.extractLsb' 8 8), (0xA3, w.extractLsb' 0 8)]
    let txs := (sent.zip rs).map fun p => (⟨p.1.1, p.1.2, p.2.1, p.2.2⟩ : Txn)
    s.env.drives = okDrives (2 * n) ++ .returns .ok :: .returns o :: ds →
    s.env.exchanges = okExchanges txs ++ .err :: es →
      ∃ s1, exec (.setFreq val) s = .next s1 ∧ run (4 * n + 3) s1 = .next (afterBusFault s txs
        [.drive .low .ok, .exchange (0xA0#8 + BitVec.ofNat 8 n) none, .drive .high o] 2 1
        (if o = .ok then .high else .unknown) s.poll ds es)

/-- R133 "Round trip": SET_FREQ, the response taken, then GET_FREQ, run by the machine from its command port: where the
chip returns the bytes it was sent, the second response is FW(val). That the chip stores them is the hypothesis of the
rule, no claim about the chip. -/
def Obligations.SetFreqThenGetFreq : Prop :=
  ∀ (val : BitVec 32) (s : State) (ws : List CommandWord) (wr rd : List (Byte × Byte)) (ds : List DriveAnswer)
    (es : List ExchangeAnswer), Accepting s → s.env.hostReady = true →
    s.env.cmds = (0x06#8 ++ val) :: 0x0700000000 :: ws → wr.length = 4 →
    rd.map Prod.snd = [(freqWord val).extractLsb' 24 8, (freqWord val).extractLsb' 16 8, (freqWord val).extractLsb' 8 8,
      (freqWord val).extractLsb' 0 8] →
    s.env.drives = okDrives 16 ++ ds →
    s.env.exchanges = (wr ++ rd).flatMap (fun p => [.ok p.1, .ok p.2]) ++ es →
      ∃ t, run 35 s = .next t ∧ t.phase = .idle ∧ t.cs = .high ∧ t.env.cmds = ws ∧
        t.resp = some { code := .ok, sv := false, status := 0, data := freqWord val } ∧
        t.env.taken = s.env.taken ++ [{ code := .ok, sv := false, status := 0, data := 0 }]

/-! ### Auto-ranging -/

/-- 43_autoranging.md R145: the transition after a poll, by the bits 4 and 5 of the byte read and the poll index. That
the index counts up in the step that starts the next poll is the model's choice (log entry 13). -/
def Obligations.PollTransitions : Prop :=
  ∀ (s : State) (k : Nat) (l : Locals), s.phase = .busy .autorange k l → l.point = .between → 2 ≤ l.txns →
    (l.data.getLsbD 4 = true → s.poll + 1 < 3000 → driveAnswer s = .returns .ok →
      ∃ t l', exec .autorange s = .next t ∧ t.poll = s.poll + 1 ∧ t.phase = .busy .autorange (k + 1) l' ∧
        l' = { l with point := .sendHigh, frame := 0x2D00 } ∧ t.resp = s.resp ∧ t.cs = .low ∧
        t.env.trace = s.env.trace ++ [.drive .low .ok]) ∧
    (l.data.getLsbD 4 = true → 3000 ≤ s.poll + 1 →
      exec .autorange s = .next { s with
        phase := .idle, poll := s.poll + 1
        resp := some { code := .autoRangingTimeout, sv := false, status := 0, data := 0 } }) ∧
    (l.data.getLsbD 4 = false → l.data.getLsbD 5 = true →
      exec .autorange s = .next { s with
        phase := .idle, resp := some { code := .autoRangingError, sv := false, status := 0, data := 0 } }) ∧
    (l.data.getLsbD 4 = false → l.data.getLsbD 5 = false →
      exec .autorange s = .next { s with
        phase := .idle
        resp := some { code := .ok, sv := false, status := 0, data := BitVec.ofNat 32 s.poll } })

/-- R141, R145, R146, R154: busy for the first N < 3000 polls and then clear: Complete(N) after N + 2 transactions when the
error bit is clear, AutoRangingError when it is set. That the Idle state keeps `poll` at N is the model's choice (log
entry 13). -/
def Obligations.AutorangeAfterBusyPolls : Prop :=
  ∀ (s : State) (st : Byte × Byte) (polls : List (Byte × Byte)) (last : Byte × Byte) (ds : List DriveAnswer)
    (es : List ExchangeAnswer), polls.length < 3000 → (∀ p ∈ polls, p.2.getLsbD 4 = true) →
    last.2.getLsbD 4 = false → Accepting s →
    let txs : List Txn := ⟨0xAD, 0x08, st.1, st.2⟩ :: (polls ++ [last]).map fun p => ⟨0x2D, 0x00, p.1, p.2⟩
    Answers s txs ds es →
      ∃ s1, exec .autorange s = .next s1 ∧ run (4 * txs.length) s1 = .next (afterCommand s txs polls.length
        (if last.2.getLsbD 5 then { code := .autoRangingError, sv := false, status := 0, data := 0 }
         else { code := .ok, sv := false, status := 0, data := BitVec.ofNat 32 polls.length }) ds es)

/-- R143, R153: 3000 polls that all read busy: AutoRangingTimeout right after the 3000th, 3001 transactions in
all. That the Idle state keeps `poll` at 3000 is the model's choice (log entry 13). -/
def Obligations.AutorangeTimesOutAfter3000Polls : Prop :=
  ∀ (s : State) (st : Byte × Byte) (polls : List (Byte × Byte)) (ds : List DriveAnswer) (es : List ExchangeAnswer),
    polls.length = 3000 → (∀ p ∈ polls, p.2.getLsbD 4 = true) → Accepting s →
    let txs : List Txn := ⟨0xAD, 0x08, st.1, st.2⟩ :: polls.map fun p => ⟨0x2D, 0x00, p.1, p.2⟩
    Answers s txs ds es →
      txs.length = 3001 ∧
      ∃ s1, exec .autorange s = .next s1 ∧ run (4 * txs.length) s1 = .next (afterCommand s txs 3000
        { code := .autoRangingTimeout, sv := false, status := 0, data := 0 } ds es)

/-- R141, R147: a poll whose first exchange fails ends the command with BusFault at once, after the restore drive, with no
further poll. That the Idle state keeps `poll` at the number of busy polls, a value R23 leaves unspecified there, is the
model's choice (log entry 13). -/
def Obligations.AutorangeBusFault : Prop :=
  ∀ (s : State) (st : Byte × Byte) (polls : List (Byte × Byte)) (o : DriveResult) (ds : List DriveAnswer)
    (es : List ExchangeAnswer), polls.length < 3000 → (∀ p ∈ polls, p.2.getLsbD 4 = true) → Accepting s →
    let txs : List Txn := ⟨0xAD, 0x08, st.1, st.2⟩ :: polls.map fun p => ⟨0x2D, 0x00, p.1, p.2⟩
    s.env.drives = okDrives (2 * txs.length) ++ .returns .ok :: .returns o :: ds →
    s.env.exchanges = okExchanges txs ++ .err :: es →
      ∃ s1, exec .autorange s = .next s1 ∧ run (4 * txs.length + 3) s1 = .next (afterBusFault s txs
        [.drive .low .ok, .exchange 0x2D none, .drive .high o] 2 1 (if o = .ok then .high else .unknown)
        polls.length ds es)

/-! ### Invariants, progress and independence -/

/-- R13 to R15, R28: the block's invariant holds at reset. -/
def Obligations.ResetHasBlockInv : Prop := BlockInv State.reset

/-- R13 to R15, R23, R27, R104 to R106: every step from every state keeps the block's invariant. It speaks of
`poll` and the locals also where no host can see them (log entries 12 and 13). -/
def Obligations.StepKeepsBlockInv : Prop :=
  ∀ s t : State, BlockInv s → step s = .next t → BlockInv t

/-- R174: the trace at reset is paired. -/
def Obligations.ResetHasPairing : Prop := PairingInv State.reset

/-- R174, R105, R107: every step keeps the chip-select discipline of the trace: CsLow and CsHigh attempts paired 1:1, two
exchanges in each completed transaction, none after a failure. -/
def Obligations.StepKeepsPairing : Prop :=
  ∀ s t : State, PairingInv s → step s = .next t → PairingInv t

/-- 70_reset_and_hazards.md R182: if the calls return, every command ends, within its bound, with a response. It
speaks of answers scripted in the state only, not of the free ones beyond the script (log entry 3). That a call that never
returns is a wait, and the finish a step, are the model's (log entries 1 and 4). -/
def Obligations.EveryCommandEnds : Prop :=
  ∀ (s : State) (i : Instr) (k : Nat) (l : Locals), BlockInv s → s.env.resetLine = false → s.phase = .busy i k l →
    stepsLeft s ≤ s.env.drives.length → stepsLeft s ≤ s.env.exchanges.length →
    .never ∉ s.env.drives → .never ∉ s.env.exchanges →
      ∃ n t r, n ≤ stepsLeft s ∧ n ≤ 4 * maxTxns i + 1 ∧ run n s = .next t ∧ t.phase = .idle ∧ t.resp = some r

/-- 30_encoding.md R66, 60_exceptions.md R151: every response a step makes has the shape its code requires. -/
def Obligations.ResponsesHaveTheirShape : Prop :=
  ∀ (s t : State) (r : Response), step s = .next t → s.resp = none → t.resp = some r → ResponseShape r

/-- R26, R175: no step reads `cs`: with another level it takes the same step, `cs` apart. -/
def Obligations.CsIsNeverRead : Prop :=
  ∀ (s t : State) (c : CsLevel), step s = .next t →
    ∃ c', step { s with cs := c } = .next { t with cs := c' }

/-- R23: the poll index is read only by AUTORANGE after a poll: any other step is the same whatever it holds
(log entry 13). -/
def Obligations.PollIsReadOnlyByAutorange : Prop :=
  ∀ (s t : State) (p : Nat), ¬ readsPoll s → step s = .next t →
    ∃ p', step { s with poll := p } = .next { t with poll := p' }
end

