-- ==== Sys2Proof/Laws/Operands.lean ====
section
/-! SUPPORT. What the operand functions can give: chosen parameters, addresses, the assembled word. -/

namespace Sys2Proof.Machine

open Sys2Proof

/-- A chosen element is one of the list, whatever number chooses it. -/
theorem choose_mem {α : Type} {l : List α} (hl : l ≠ []) (pick : Nat) (d : α) : choose l pick d ∈ l := by
  have hlt : pick % l.length < l.length := Nat.mod_lt _ (List.length_pos_of_ne_nil hl)
  unfold choose
  rw [List.getD_eq_getElem _ _ hlt]
  exact List.getElem_mem hlt

/-- The two address functions agree where the source gives an address (20_memory.md R31). -/
theorem regAddr_of_fixed {r : ChipReg} {a : Byte} (h : fixedAddr r = some a) : regAddr r = a := by
  cases r <;> simp_all [fixedAddr, regAddr]

theorem openAddrs_length : openAddrs.length = 113 := by decide +kernel

theorem openAddrs_nodup : openAddrs.Nodup := by decide +kernel

@[simp] theorem assemble_nil : assemble [] = 0 := rfl

theorem assemble_append (bs : List Byte) (b : Byte) : assemble (bs ++ [b]) = (assemble bs <<< 8) ||| b.setWidth 32 := by
  simp [assemble]

/-- The quantizer's reduced form (42_quantization.md R128). -/
theorem quantize_eq (v : Nat) : quantize v = (32768 * v + 46874) / 31250 := by
  simp only [quantize, Config.qshift, Config.crystalHz]
  omega

end Sys2Proof.Machine
end

