-- ==== Sys2Proof/Laws/State.lean ====
section
/-! SUPPORT. One lemma per field per update of the state, true by rfl: proofs rewrite with these and unfold no record
update. -/

namespace Sys2Proof.Machine

open Sys2Proof

variable (s : State)

/-! ### doDrive -/

@[simp] theorem doDrive_cs (d : Drive) (r : DriveResult) : (doDrive d r s).cs = csAfter d r := rfl
@[simp] theorem doDrive_phase (d : Drive) (r : DriveResult) : (doDrive d r s).phase = s.phase := rfl
@[simp] theorem doDrive_poll (d : Drive) (r : DriveResult) : (doDrive d r s).poll = s.poll := rfl
@[simp] theorem doDrive_resp (d : Drive) (r : DriveResult) : (doDrive d r s).resp = s.resp := rfl
@[simp] theorem doDrive_resetLine (d : Drive) (r : DriveResult) : (doDrive d r s).env.resetLine = s.env.resetLine := rfl
@[simp] theorem doDrive_hostReady (d : Drive) (r : DriveResult) : (doDrive d r s).env.hostReady = s.env.hostReady := rfl
@[simp] theorem doDrive_cmds (d : Drive) (r : DriveResult) : (doDrive d r s).env.cmds = s.env.cmds := rfl
@[simp] theorem doDrive_drives (d : Drive) (r : DriveResult) : (doDrive d r s).env.drives = s.env.drives.tail := rfl
@[simp] theorem doDrive_exchanges (d : Drive) (r : DriveResult) : (doDrive d r s).env.exchanges = s.env.exchanges := rfl
@[simp] theorem doDrive_driveCalls (d : Drive) (r : DriveResult) : (doDrive d r s).env.driveCalls = s.env.driveCalls + 1 := rfl
@[simp] theorem doDrive_exchangeCalls (d : Drive) (r : DriveResult) : (doDrive d r s).env.exchangeCalls = s.env.exchangeCalls := rfl
@[simp] theorem doDrive_trace (d : Drive) (r : DriveResult) : (doDrive d r s).env.trace = s.env.trace ++ [.drive d r] := rfl
@[simp] theorem doDrive_taken (d : Drive) (r : DriveResult) : (doDrive d r s).env.taken = s.env.taken := rfl

/-! ### doExchange -/

@[simp] theorem doExchange_cs (out : Byte) (b : Option Byte) : (doExchange out b s).cs = s.cs := rfl
@[simp] theorem doExchange_phase (out : Byte) (b : Option Byte) : (doExchange out b s).phase = s.phase := rfl
@[simp] theorem doExchange_poll (out : Byte) (b : Option Byte) : (doExchange out b s).poll = s.poll := rfl
@[simp] theorem doExchange_resp (out : Byte) (b : Option Byte) : (doExchange out b s).resp = s.resp := rfl
@[simp] theorem doExchange_resetLine (out : Byte) (b : Option Byte) : (doExchange out b s).env.resetLine = s.env.resetLine := rfl
@[simp] theorem doExchange_hostReady (out : Byte) (b : Option Byte) : (doExchange out b s).env.hostReady = s.env.hostReady := rfl
@[simp] theorem doExchange_cmds (out : Byte) (b : Option Byte) : (doExchange out b s).env.cmds = s.env.cmds := rfl
@[simp] theorem doExchange_drives (out : Byte) (b : Option Byte) : (doExchange out b s).env.drives = s.env.drives := rfl
@[simp] theorem doExchange_exchanges (out : Byte) (b : Option Byte) : (doExchange out b s).env.exchanges = s.env.exchanges.tail := rfl
@[simp] theorem doExchange_driveCalls (out : Byte) (b : Option Byte) : (doExchange out b s).env.driveCalls = s.env.driveCalls := rfl
@[simp] theorem doExchange_exchangeCalls (out : Byte) (b : Option Byte) : (doExchange out b s).env.exchangeCalls = s.env.exchangeCalls + 1 := rfl
@[simp] theorem doExchange_trace (out : Byte) (b : Option Byte) : (doExchange out b s).env.trace = s.env.trace ++ [.exchange out b] := rfl
@[simp] theorem doExchange_taken (out : Byte) (b : Option Byte) : (doExchange out b s).env.taken = s.env.taken := rfl

/-! ### setBusy -/

@[simp] theorem setBusy_cs (i : Instr) (k : Nat) (l : Locals) : (setBusy i k l s).cs = s.cs := rfl
@[simp] theorem setBusy_phase (i : Instr) (k : Nat) (l : Locals) : (setBusy i k l s).phase = .busy i k l := rfl
@[simp] theorem setBusy_poll (i : Instr) (k : Nat) (l : Locals) : (setBusy i k l s).poll = s.poll := rfl
@[simp] theorem setBusy_resp (i : Instr) (k : Nat) (l : Locals) : (setBusy i k l s).resp = s.resp := rfl
@[simp] theorem setBusy_env (i : Instr) (k : Nat) (l : Locals) : (setBusy i k l s).env = s.env := rfl

/-! ### setPoll -/

@[simp] theorem setPoll_cs (p : Nat) : (setPoll p s).cs = s.cs := rfl
@[simp] theorem setPoll_phase (p : Nat) : (setPoll p s).phase = s.phase := rfl
@[simp] theorem setPoll_poll (p : Nat) : (setPoll p s).poll = p := rfl
@[simp] theorem setPoll_resp (p : Nat) : (setPoll p s).resp = s.resp := rfl
@[simp] theorem setPoll_env (p : Nat) : (setPoll p s).env = s.env := rfl

/-! ### finish -/

@[simp] theorem finish_cs (r : Response) : (finish r s).cs = s.cs := rfl
@[simp] theorem finish_phase (r : Response) : (finish r s).phase = .idle := rfl
@[simp] theorem finish_poll (r : Response) : (finish r s).poll = s.poll := rfl
@[simp] theorem finish_resp (r : Response) : (finish r s).resp = some r := rfl
@[simp] theorem finish_env (r : Response) : (finish r s).env = s.env := rfl

/-! ### raise -/

@[simp] theorem raise_cs (c : Code) (d : BitVec 32) : (raise c d s).cs = s.cs := rfl
@[simp] theorem raise_phase (c : Code) (d : BitVec 32) : (raise c d s).phase = .idle := rfl
@[simp] theorem raise_poll (c : Code) (d : BitVec 32) : (raise c d s).poll = s.poll := rfl
@[simp] theorem raise_resp (c : Code) (d : BitVec 32) : (raise c d s).resp = some (errorResponse c d) := rfl
@[simp] theorem raise_env (c : Code) (d : BitVec 32) : (raise c d s).env = s.env := rfl

/-! ### accept -/

@[simp] theorem accept_cs (i : Instr) : (accept i s).cs = s.cs := rfl
@[simp] theorem accept_phase (i : Instr) : (accept i s).phase = .busy i 0 Locals.fresh := rfl
@[simp] theorem accept_poll (i : Instr) : (accept i s).poll = s.poll := rfl
@[simp] theorem accept_resp (i : Instr) : (accept i s).resp = s.resp := rfl
@[simp] theorem accept_env (i : Instr) : (accept i s).env = s.env := rfl

/-! ### takeResponse -/

@[simp] theorem takeResponse_cs (r : Response) : (takeResponse r s).cs = s.cs := rfl
@[simp] theorem takeResponse_phase (r : Response) : (takeResponse r s).phase = s.phase := rfl
@[simp] theorem takeResponse_poll (r : Response) : (takeResponse r s).poll = s.poll := rfl
@[simp] theorem takeResponse_resp (r : Response) : (takeResponse r s).resp = none := rfl
@[simp] theorem takeResponse_resetLine (r : Response) : (takeResponse r s).env.resetLine = s.env.resetLine := rfl
@[simp] theorem takeResponse_hostReady (r : Response) : (takeResponse r s).env.hostReady = s.env.hostReady := rfl
@[simp] theorem takeResponse_cmds (r : Response) : (takeResponse r s).env.cmds = s.env.cmds := rfl
@[simp] theorem takeResponse_drives (r : Response) : (takeResponse r s).env.drives = s.env.drives := rfl
@[simp] theorem takeResponse_exchanges (r : Response) : (takeResponse r s).env.exchanges = s.env.exchanges := rfl
@[simp] theorem takeResponse_driveCalls (r : Response) : (takeResponse r s).env.driveCalls = s.env.driveCalls := rfl
@[simp] theorem takeResponse_exchangeCalls (r : Response) : (takeResponse r s).env.exchangeCalls = s.env.exchangeCalls := rfl
@[simp] theorem takeResponse_trace (r : Response) : (takeResponse r s).env.trace = s.env.trace := rfl
@[simp] theorem takeResponse_taken (r : Response) : (takeResponse r s).env.taken = s.env.taken ++ [r] := rfl

/-! ### dropCommand -/

@[simp] theorem dropCommand_cs (ws : List CommandWord) : (dropCommand ws s).cs = s.cs := rfl
@[simp] theorem dropCommand_phase (ws : List CommandWord) : (dropCommand ws s).phase = s.phase := rfl
@[simp] theorem dropCommand_poll (ws : List CommandWord) : (dropCommand ws s).poll = s.poll := rfl
@[simp] theorem dropCommand_resp (ws : List CommandWord) : (dropCommand ws s).resp = s.resp := rfl
@[simp] theorem dropCommand_resetLine (ws : List CommandWord) : (dropCommand ws s).env.resetLine = s.env.resetLine := rfl
@[simp] theorem dropCommand_hostReady (ws : List CommandWord) : (dropCommand ws s).env.hostReady = s.env.hostReady := rfl
@[simp] theorem dropCommand_cmds (ws : List CommandWord) : (dropCommand ws s).env.cmds = ws := rfl
@[simp] theorem dropCommand_drives (ws : List CommandWord) : (dropCommand ws s).env.drives = s.env.drives := rfl
@[simp] theorem dropCommand_exchanges (ws : List CommandWord) : (dropCommand ws s).env.exchanges = s.env.exchanges := rfl
@[simp] theorem dropCommand_driveCalls (ws : List CommandWord) : (dropCommand ws s).env.driveCalls = s.env.driveCalls := rfl
@[simp] theorem dropCommand_exchangeCalls (ws : List CommandWord) : (dropCommand ws s).env.exchangeCalls = s.env.exchangeCalls := rfl
@[simp] theorem dropCommand_trace (ws : List CommandWord) : (dropCommand ws s).env.trace = s.env.trace := rfl
@[simp] theorem dropCommand_taken (ws : List CommandWord) : (dropCommand ws s).env.taken = s.env.taken := rfl

/-! ### blockReset -/

@[simp] theorem blockReset_cs : (blockReset s).cs = .high := rfl
@[simp] theorem blockReset_phase : (blockReset s).phase = .idle := rfl
@[simp] theorem blockReset_poll : (blockReset s).poll = 0 := rfl
@[simp] theorem blockReset_resp : (blockReset s).resp = none := rfl
@[simp] theorem blockReset_resetLine : (blockReset s).env.resetLine = false := rfl
@[simp] theorem blockReset_hostReady : (blockReset s).env.hostReady = s.env.hostReady := rfl
@[simp] theorem blockReset_cmds : (blockReset s).env.cmds = s.env.cmds := rfl
@[simp] theorem blockReset_drives : (blockReset s).env.drives = s.env.drives := rfl
@[simp] theorem blockReset_exchanges : (blockReset s).env.exchanges = s.env.exchanges := rfl
@[simp] theorem blockReset_driveCalls : (blockReset s).env.driveCalls = s.env.driveCalls := rfl
@[simp] theorem blockReset_exchangeCalls : (blockReset s).env.exchangeCalls = s.env.exchangeCalls := rfl
@[simp] theorem blockReset_trace : (blockReset s).env.trace = s.env.trace := rfl
@[simp] theorem blockReset_taken : (blockReset s).env.taken = s.env.taken := rfl

end Sys2Proof.Machine
end

