-- ==== Sys2Proof/Laws/Ops.lean ====
section
/-! SUPPORT. What each shared operation can do, said once: proofs cite these and do not unfold the operation. -/

namespace Sys2Proof.Machine

open Sys2Proof

/-! ### Answers of the collaborators -/

theorem driveAnswer_of_scripted {s : State} {a : DriveAnswer} {ds : List DriveAnswer} (h : s.env.drives = a :: ds) :
    driveAnswer s = a := by simp [driveAnswer, h]

theorem exchangeAnswer_of_scripted {s : State} {a : ExchangeAnswer} {es : List ExchangeAnswer}
    (h : s.env.exchanges = a :: es) : exchangeAnswer s = a := by simp [exchangeAnswer, h]

theorem driveAnswer_of_unscripted {s : State} (h : s.env.drives = []) :
    driveAnswer s = Config.freeDrive s.env.driveCalls := by simp [driveAnswer, h]

theorem exchangeAnswer_of_unscripted {s : State} (h : s.env.exchanges = []) :
    exchangeAnswer s = Config.freeExchange s.env.exchangeCalls := by simp [exchangeAnswer, h]

@[simp] theorem okDrives_zero : okDrives 0 = [] := rfl

@[simp] theorem okDrives_succ (n : Nat) : okDrives (n + 1) = .returns .ok :: okDrives n := rfl

@[simp] theorem okExchanges_nil : okExchanges [] = [] := rfl

@[simp] theorem okExchanges_cons (t : Txn) (ts : List Txn) :
    okExchanges (t :: ts) = .ok t.status :: .ok t.data :: okExchanges ts := rfl

@[simp] theorem csAfter_err (d : Drive) : csAfter d .err = .unknown := by cases d <;> rfl

@[simp] theorem csAfter_low_ok : csAfter .low .ok = .low := rfl

@[simp] theorem csAfter_high_ok : csAfter .high .ok = .high := rfl

/-! ### The steps of Transact -/

section
variable {i : Instr} {poll k : Nat} {l : Locals} {addr : Byte} {mode : AccessMode} {s : State}

theorem beginTransact_ok (h : driveAnswer s = .returns .ok) :
    beginTransact i poll k l addr mode s =
      setBusy i (k + 1) { l with point := .sendHigh, frame := encodeFrame addr mode }
        (setPoll poll (doDrive .low .ok s)) := by
  simp [beginTransact, h]

theorem beginTransact_err (h : driveAnswer s = .returns .err) :
    beginTransact i poll k l addr mode s =
      setBusy i (k + 1) { l with point := .restore, frame := encodeFrame addr mode }
        (setPoll poll (doDrive .low .err s)) := by
  simp [beginTransact, h]

theorem beginTransact_never (h : driveAnswer s = .never) : beginTransact i poll k l addr mode s = s := by
  simp [beginTransact, h]

theorem exchangeHigh_ok {b : Byte} (h : exchangeAnswer s = .ok b) :
    exchangeHigh i k l s =
      setBusy i (k + 1) { l with point := .sendLow, status := b } (doExchange (frameHigh l.frame) (some b) s) := by
  simp [exchangeHigh, h]

theorem exchangeHigh_err (h : exchangeAnswer s = .err) :
    exchangeHigh i k l s = setBusy i (k + 1) { l with point := .restore } (doExchange (frameHigh l.frame) none s) := by
  simp [exchangeHigh, h]

theorem exchangeHigh_never (h : exchangeAnswer s = .never) : exchangeHigh i k l s = s := by simp [exchangeHigh, h]

theorem exchangeLow_ok {b : Byte} (h : exchangeAnswer s = .ok b) :
    exchangeLow i k l s =
      setBusy i (k + 1) { l with point := .release, data := b } (doExchange (frameLow l.frame) (some b) s) := by
  simp [exchangeLow, h]

theorem exchangeLow_err (h : exchangeAnswer s = .err) :
    exchangeLow i k l s = setBusy i (k + 1) { l with point := .restore } (doExchange (frameLow l.frame) none s) := by
  simp [exchangeLow, h]

theorem exchangeLow_never (h : exchangeAnswer s = .never) : exchangeLow i k l s = s := by simp [exchangeLow, h]

theorem releaseCs_ok (h : driveAnswer s = .returns .ok) :
    releaseCs i k l s =
      setBusy i (k + 1) { l with point := .between, txns := l.txns + 1 } (doDrive .high .ok s) := by
  simp [releaseCs, h]

theorem releaseCs_err (h : driveAnswer s = .returns .err) :
    releaseCs i k l s = setBusy i (k + 1) { l with point := .failed } (doDrive .high .err s) := by
  simp [releaseCs, h]

theorem releaseCs_never (h : driveAnswer s = .never) : releaseCs i k l s = s := by simp [releaseCs, h]

theorem restoreCs_returns {r : DriveResult} (h : driveAnswer s = .returns r) :
    restoreCs i k l s = setBusy i (k + 1) { l with point := .failed } (doDrive .high r s) := by
  simp [restoreCs, h]

theorem restoreCs_never (h : driveAnswer s = .never) : restoreCs i k l s = s := by simp [restoreCs, h]

end

/-! ### One step of a command, by its point -/

section
variable {i : Instr} {plan : Nat → Locals → Action} {k : Nat} {l : Locals} {s : State}

theorem advance_between (h : l.point = .between) : advance i plan k l s = act i k (plan s.poll l) s := by
  simp [advance, h]

theorem advance_sendHigh (h : l.point = .sendHigh) : advance i plan k l s = exchangeHigh i k l s := by
  simp [advance, h]

theorem advance_sendLow (h : l.point = .sendLow) : advance i plan k l s = exchangeLow i k l s := by
  simp [advance, h]

theorem advance_release (h : l.point = .release) : advance i plan k l s = releaseCs i k l s := by
  simp [advance, h]

theorem advance_restore (h : l.point = .restore) : advance i plan k l s = restoreCs i k l s := by
  simp [advance, h]

theorem advance_failed (h : l.point = .failed) : advance i plan k l s = raise .busFault 0 s := by
  simp [advance, h]

end

/-! ### One step of a command, whichever it is -/

/-- Everything one step of a Busy command can do: it waits, it performs exactly one event and stays Busy with one more
event counted, or it finishes with a response and no event (10_state.md R15). -/
theorem advance_cases (i : Instr) (plan : Nat → Locals → Action) (k : Nat) (l : Locals) (s : State) :
    advance i plan k l s = s ∨
    (∃ e l', (advance i plan k l s).phase = .busy i (k + 1) l' ∧ (advance i plan k l s).resp = s.resp ∧
      (advance i plan k l s).env.trace = s.env.trace ++ [e]) ∨
    (∃ r, (advance i plan k l s).phase = .idle ∧ (advance i plan k l s).resp = some r ∧
      (advance i plan k l s).env = s.env ∧ (advance i plan k l s).cs = s.cs) := by
  have event : ∀ {x t : State} {e : Event} {l' : Locals}, x = setBusy i (k + 1) l' t → t.resp = s.resp →
      t.env.trace = s.env.trace ++ [e] →
      ∃ e l', x.phase = .busy i (k + 1) l' ∧ x.resp = s.resp ∧ x.env.trace = s.env.trace ++ [e] := by
    intro x t e l' h hr ht
    exact ⟨e, l', by rw [h]; rfl, by rw [h]; exact hr, by rw [h]; exact ht⟩
  rcases hl : l.point with _ | _ | _ | _ | _ | _
  · rw [advance_between hl]
    rcases plan s.poll l with ⟨poll, l', addr, mode⟩ | ⟨poll, r⟩ | ⟨poll, c, d⟩
    · rcases h : driveAnswer s with ⟨_ | _⟩ | _
      · exact .inr (.inl (event (beginTransact_ok h) rfl rfl))
      · exact .inr (.inl (event (beginTransact_err h) rfl rfl))
      · exact .inl (beginTransact_never h)
    · exact .inr (.inr ⟨r, rfl, rfl, rfl, rfl⟩)
    · exact .inr (.inr ⟨errorResponse c d, rfl, rfl, rfl, rfl⟩)
  · rw [advance_sendHigh hl]
    rcases h : exchangeAnswer s with b | _ | _
    · exact .inr (.inl (event (exchangeHigh_ok h) rfl rfl))
    · exact .inr (.inl (event (exchangeHigh_err h) rfl rfl))
    · exact .inl (exchangeHigh_never h)
  · rw [advance_sendLow hl]
    rcases h : exchangeAnswer s with b | _ | _
    · exact .inr (.inl (event (exchangeLow_ok h) rfl rfl))
    · exact .inr (.inl (event (exchangeLow_err h) rfl rfl))
    · exact .inl (exchangeLow_never h)
  · rw [advance_release hl]
    rcases h : driveAnswer s with ⟨_ | _⟩ | _
    · exact .inr (.inl (event (releaseCs_ok h) rfl rfl))
    · exact .inr (.inl (event (releaseCs_err h) rfl rfl))
    · exact .inl (releaseCs_never h)
  · rw [advance_restore hl]
    rcases h : driveAnswer s with r | _
    · exact .inr (.inl (event (restoreCs_returns h) rfl rfl))
    · exact .inl (restoreCs_never h)
  · rw [advance_failed hl]
    exact .inr (.inr ⟨errorResponse .busFault 0, rfl, rfl, rfl, rfl⟩)

/-! ### The command port -/

theorem runCommand_of_idle {i : Instr} {plan : Nat → Locals → Action} {s : State} (hp : s.phase = .idle)
    (hr : s.resp = none) : runCommand i plan s = .next (advance i plan 0 Locals.fresh (accept i s)) := by
  simp [runCommand, hp, hr]

theorem runCommand_of_busy {i : Instr} {plan : Nat → Locals → Action} {s : State} {k : Nat} {l : Locals}
    (hp : s.phase = .busy i k l) : runCommand i plan s = .next (advance i plan k l s) := by
  simp [runCommand, hp]

/-- Everything a meaning can answer: one step of the instruction from where it stands, or the refusal of a command that
the port would not take (10_state.md R27). -/
theorem runCommand_cases (i : Instr) (plan : Nat → Locals → Action) (s : State) :
    (s.phase = .idle ∧ s.resp = none ∧ runCommand i plan s = .next (advance i plan 0 Locals.fresh (accept i s))) ∨
    (∃ k l, s.phase = .busy i k l ∧ runCommand i plan s = .next (advance i plan k l s)) ∨
    (s.phase = .idle ∧ (∃ r, s.resp = some r) ∧ runCommand i plan s = .refused .responseHeld) ∨
    (∃ j k l, s.phase = .busy j k l ∧ j ≠ i ∧ runCommand i plan s = .refused .interleaved) := by
  rcases hp : s.phase with _ | ⟨j, k, l⟩
  · rcases hr : s.resp with _ | r
    · exact .inl ⟨rfl, rfl, runCommand_of_idle hp hr⟩
    · exact .inr (.inr (.inl ⟨rfl, ⟨r, rfl⟩, by simp [runCommand, hp, hr]⟩))
  · by_cases h : j = i
    · subst h; exact .inr (.inl ⟨k, l, rfl, runCommand_of_busy hp⟩)
    · exact .inr (.inr (.inr ⟨j, k, l, rfl, h, by simp [runCommand, hp, h]⟩))

/-- The pseudocode of every instruction, as its meaning gives it to `runCommand`. -/
def planOf : Instr → Nat → Locals → Action
  | .execR addr => oneTransaction addr .read execResponse
  | .execW addr data => oneTransaction addr (.write data) execResponse
  | .getScratch => oneTransaction (regAddr .scratch) .read readResponse
  | .setScratch v => oneTransaction (regAddr .scratch) (.write v) writeResponse
  | .setPwrmodePowerdown => setPwrmode 0x0
  | .setPwrmodeVregon => setPwrmode 0x4
  | .setPwrmodeStandby => setPwrmode 0x5
  | .setPwrmodeSynthtx => setPwrmode 0xC
  | .setPwrmodeFulltx => setPwrmode 0xD
  | .setPllloop flt cpi bs fs => oneTransaction (regAddr .pllloop) (.write (packPllLoop flt cpi bs fs)) writeResponse
  | .setFreq val => setFreqPlan val
  | .getFreq => getFreqPlan
  | .setTxpwr => oneTransaction (regAddr .txpwr) (.write 0x0F) writeResponse
  | .setTxrate val => setTxratePlan val
  | .setMod sel => selectorCommand (regAddr .modulation) sel
  | .getMod => getModPlan
  | .setFraming sel => selectorCommand (regAddr .framing) sel
  | .setEncoding sel => selectorCommand (regAddr .encoding) sel
  | .setSysclkLed on => oneTransaction (regAddr .pincfg1) (.write (if on = 1 then 0x01 else 0x00)) writeResponse
  | .getPincfg1 => oneTransaction (regAddr .pincfg1) .read readResponse
  | .getPincfg2 => oneTransaction (regAddr .pincfg2) .read readResponse
  | .txByte v => oneTransaction (regAddr .fifodata) (.write v) (fun status _ => statusResponse status 0)
  | .autorange => autorangePlan
  | .frameRead addr => oneTransaction addr .read execResponse
  | .frameWrite addr data => oneTransaction addr (.write data) execResponse

theorem exec_eq_runCommand (i : Instr) (s : State) : exec i s = runCommand i (planOf i) s := by cases i <;> rfl

theorem exec_of_busy {i : Instr} {s : State} {k : Nat} {l : Locals} (hp : s.phase = .busy i k l) :
    exec i s = .next (advance i (planOf i) k l s) := by rw [exec_eq_runCommand, runCommand_of_busy hp]

theorem exec_of_idle {i : Instr} {s : State} (hp : s.phase = .idle) (hr : s.resp = none) :
    exec i s = .next (advance i (planOf i) 0 Locals.fresh (accept i s)) := by
  rw [exec_eq_runCommand, runCommand_of_idle hp hr]

/-! ### The step -/

theorem step_of_busy {i : Instr} {s : State} {k : Nat} {l : Locals} (hz : s.env.resetLine = false)
    (hp : s.phase = .busy i k l) : step s = .next (advance i (planOf i) k l s) := by
  simp [step, hz, hp, exec_of_busy hp]

theorem step_of_reset {s : State} (hz : s.env.resetLine = true) : step s = .next (blockReset s) := by simp [step, hz]

@[simp] theorem run_zero (s : State) : run 0 s = .next s := rfl

theorem run_succ_of_step {n : Nat} {s t : State} (h : step s = .next t) : run (n + 1) s = run n t := by
  have hc : Sys2Proof.core.step s = .next t := h
  simp only [run, Host.Core.run]
  rw [hc]

theorem run_succ_of_busy {n : Nat} {i : Instr} {s : State} {k : Nat} {l : Locals} (hz : s.env.resetLine = false)
    (hp : s.phase = .busy i k l) : run (n + 1) s = run n (advance i (planOf i) k l s) :=
  run_succ_of_step (step_of_busy hz hp)

/-- The first step of a run that goes on answers a next state. -/
theorem run_succ_cases {n : Nat} {s t : State} (h : run (n + 1) s = .next t) : ∃ s', step s = .next s' ∧ run n s' = .next t := by
  rcases hs : step s with s' | f | r
  · exact ⟨s', rfl, by rwa [run_succ_of_step hs] at h⟩
  · exact nomatch f
  · have hc : Sys2Proof.core.step s = .refused r := hs
    simp only [run, Host.Core.run] at h
    rw [hc] at h
    cases h

/-- Runs are put together end to end. -/
theorem run_add {m n : Nat} {s t : State} (h : run m s = .next t) : run (m + n) s = run n t := by
  induction m generalizing s with
  | zero => cases h; rw [Nat.zero_add]
  | succ m ih =>
    obtain ⟨s', hs, hr⟩ := run_succ_cases h
    rw [Nat.add_right_comm, run_succ_of_step hs]
    exact ih hr

/-! ### A whole transaction -/

/-- The state after a transaction that met no failure: its four events, the bytes it received, and one more transaction
completed. -/
def afterTransact (i : Instr) (poll k : Nat) (l : Locals) (frame : Frame) (status data : Byte) (s : State) : State :=
  { cs := .high
    phase := .busy i (k + 4)
      { l with point := .between, txns := l.txns + 1, frame := frame, status := status, data := data }
    poll := poll
    resp := s.resp
    env := { s.env with
      drives := s.env.drives.tail.tail
      exchanges := s.env.exchanges.tail.tail
      driveCalls := s.env.driveCalls + 2
      exchangeCalls := s.env.exchangeCalls + 2
      trace := s.env.trace ++ txnEvents ⟨frameHigh frame, frameLow frame, status, data⟩ } }

/-- Four calls that answer Ok carry a transaction through (40_framer.md R104): the step that starts it and three more. -/
theorem run_transact {i : Instr} {poll k : Nat} {l l' : Locals} {addr : Byte} {mode : AccessMode} {s : State}
    {ds : List DriveAnswer} {es : List ExchangeAnswer} {status data : Byte}
    (hz : s.env.resetLine = false) (hl : l.point = .between)
    (ha : planOf i s.poll l = .transact poll l' addr mode)
    (hd : s.env.drives = .returns .ok :: .returns .ok :: ds)
    (he : s.env.exchanges = .ok status :: .ok data :: es) :
    run 3 (advance i (planOf i) k l s) = .next (afterTransact i poll k l' (encodeFrame addr mode) status data s) := by
  rw [advance_between hl, ha, act, beginTransact_ok (driveAnswer_of_scripted hd)]
  rw [run_succ_of_busy (by simpa using hz) rfl, advance_sendHigh rfl,
    exchangeHigh_ok (exchangeAnswer_of_scripted (by simpa using he))]
  rw [run_succ_of_busy (by simpa using hz) rfl, advance_sendLow rfl,
    exchangeLow_ok (b := data) (exchangeAnswer_of_scripted (es := es) (by simp [he]))]
  rw [run_succ_of_busy (by simpa using hz) rfl, advance_release rfl,
    releaseCs_ok (driveAnswer_of_scripted (ds := ds) (by simp [hd]))]
  simp [afterTransact, txnEvents, setBusy, setPoll, doDrive, doExchange]

end Sys2Proof.Machine
end

