-- ==== Sys2Proof/Laws/Commands.lean ====
section
/-! SUPPORT. Whole commands: the bytes of a frame, a transaction inside a run, the commands of one transaction. -/

namespace Sys2Proof.Machine

open Sys2Proof

/-! ### The bytes of a frame (40_framer.md R101, R102) -/

@[simp] theorem frameLow_encode_read (a : Byte) : frameLow (encodeFrame a .read) = 0 := by
  simp only [frameLow, encodeFrame]; ext i hi; interval_cases i <;> simp

@[simp] theorem frameHigh_encode_write (a v : Byte) : frameHigh (encodeFrame a (.write v)) = 0x80#8 ||| a := by
  simp only [frameHigh, encodeFrame]; ext i hi; interval_cases i <;> simp

@[simp] theorem frameLow_encode_write (a v : Byte) : frameLow (encodeFrame a (.write v)) = v := by
  simp only [frameLow, encodeFrame]; ext i hi; interval_cases i <;> simp

/-- Bit 7 of a 7-bit address is 0. -/
theorem regAddr_bit7 {a : Byte} (h : isRegAddr a = true) : a[7] = false := by
  simp only [isRegAddr, decide_eq_true_eq] at h
  rw [← BitVec.getLsbD_eq_getElem, BitVec.getLsbD, Nat.testBit_lt_two_pow]
  omega

theorem frameHigh_encode_read {a : Byte} (h : isRegAddr a = true) : frameHigh (encodeFrame a .read) = a := by
  have h7 := regAddr_bit7 h
  simp only [frameHigh, encodeFrame]; ext i hi; interval_cases i <;> simp [h7]

/-- A frame's two bytes are the bytes that the access sends. -/
theorem frame_bytes {a : Byte} (h : isRegAddr a = true) (m : AccessMode) :
    frameHigh (encodeFrame a m) = (sentBytes a m).1 ∧ frameLow (encodeFrame a m) = (sentBytes a m).2 := by
  cases m
  · exact ⟨frameHigh_encode_read h, frameLow_encode_read a⟩
  · exact ⟨frameHigh_encode_write a _, frameLow_encode_write a _⟩

/-! ### The three open addresses (20_memory.md R32) -/

theorem isRegAddr_of_mem_openAddrs : ∀ a ∈ openAddrs, isRegAddr a = true := by decide +kernel

theorem openAddrs_ne_nil : openAddrs ≠ [] := by
  intro h; have := openAddrs_length; rw [h] at this; simp at this

theorem addrPincfg2_mem : addrPincfg2 ∈ openAddrs := choose_mem openAddrs_ne_nil _ _

theorem addrFraming_mem : addrFraming ∈ openAddrs.erase addrPincfg2 := by
  have h : (openAddrs.erase addrPincfg2).length = 112 := by
    rw [List.length_erase_of_mem addrPincfg2_mem, openAddrs_length]
  exact choose_mem (by intro h0; rw [h0] at h; simp at h) _ _

theorem addrEncoding_mem : addrEncoding ∈ (openAddrs.erase addrPincfg2).erase addrFraming := by
  have h : ((openAddrs.erase addrPincfg2).erase addrFraming).length = 111 := by
    rw [List.length_erase_of_mem addrFraming_mem, List.length_erase_of_mem addrPincfg2_mem, openAddrs_length]
  exact choose_mem (by intro h0; rw [h0] at h; simp at h) _ _

/-! ### Runs of a command -/

/-- A command taken by an accepting block: `exec` answers, and the machine goes on as from the accepted command. -/
theorem exec_run_of_accept {i : Instr} {s t : State} {n : Nat} (h : Accepting s) (hr : run (n + 1) (accept i s) = .next t) :
    ∃ s1, exec i s = .next s1 ∧ run n s1 = .next t := by
  refine ⟨_, exec_of_idle h.1 h.2.1, ?_⟩
  rwa [run_succ_of_busy (by exact h.2.2) rfl] at hr

/-- A transaction without failure is four steps of a run, wherever the command's pseudocode starts one. -/
theorem run_transact_add {i : Instr} {poll k n : Nat} {l l' : Locals} {addr : Byte} {mode : AccessMode} {s : State}
    {ds : List DriveAnswer} {es : List ExchangeAnswer} {status data : Byte}
    (hz : s.env.resetLine = false) (hp : s.phase = .busy i k l) (hl : l.point = .between)
    (ha : planOf i s.poll l = .transact poll l' addr mode)
    (hd : s.env.drives = .returns .ok :: .returns .ok :: ds)
    (he : s.env.exchanges = .ok status :: .ok data :: es) :
    run (4 + n) s = run n (afterTransact i poll k l' (encodeFrame addr mode) status data s) := by
  rw [show 4 + n = (3 + n) + 1 by omega, run_succ_of_busy hz hp, run_add (run_transact (k := k) hz hl ha hd he)]

/-- A command whose pseudocode starts one transaction from its fresh locals and then answers by `res`. -/
theorem completes_of_one {i : Instr} {addr : Byte} {m : AccessMode} {r : Response} {hi lo : Byte} (status data : Byte)
    (h0 : ∀ p, planOf i p Locals.fresh = .transact p Locals.fresh addr m)
    (h1 : ∀ p, planOf i p
      { Locals.fresh with txns := 1, frame := encodeFrame addr m, status := status, data := data } = .respond p r)
    (hh : frameHigh (encodeFrame addr m) = hi) (hlo : frameLow (encodeFrame addr m) = lo) :
    CompletesWith i [⟨hi, lo, status, data⟩] r := by
  rintro s ds es ha ⟨hd, he⟩
  simp only [List.length_cons, List.length_nil, Nat.zero_add, Nat.mul_one, okDrives_succ, okDrives_zero, okExchanges_cons,
    okExchanges_nil, List.cons_append, List.nil_append] at hd he
  refine exec_run_of_accept ha ?_
  rw [show 4 * [(⟨hi, lo, status, data⟩ : Txn)].length + 1 = 4 + 1 from rfl,
    run_transact_add (s := accept i s) (ds := ds) (es := es) (by exact ha.2.2) rfl rfl (h0 _) hd he,
    run_succ_of_busy (i := i) (by exact ha.2.2) rfl, advance_between rfl]
  simp only [afterTransact, accept_poll, Locals.fresh, Nat.zero_add]
  have := h1 s.poll
  simp only [Locals.fresh] at this
  rw [this, run_zero]
  subst hh hlo
  simp [act, finish, setPoll, afterCommand, hd, he]

/-- The same for the pseudocode shared by the commands of one transaction (41_config_ops.md R110). -/
theorem completes_of_oneTransaction {i : Instr} {addr : Byte} {m : AccessMode} {res : Byte → Byte → Response} {hi lo : Byte}
    (status data : Byte) (hp : ∀ p l, planOf i p l = oneTransaction addr m res p l)
    (hh : frameHigh (encodeFrame addr m) = hi) (hlo : frameLow (encodeFrame addr m) = lo) :
    CompletesWith i [⟨hi, lo, status, data⟩] (res status data) :=
  completes_of_one status data (fun p => by rw [hp]; rfl) (fun p => by rw [hp]; rfl) hh hlo

end Sys2Proof.Machine
end

