-- ==== Sys2Proof/Laws/PerInstr.lean ====
section
/-! SUPPORT. Every encoding lies in its instruction's row of the opcode table, instruction by instruction. -/

namespace Sys2Proof.Laws

open Sys2Proof Sys2Proof.Machine

/-- A command word that has a row's fixed bits is admitted by the row. -/
theorem admits_command {w : CommandWord} (bits mask : Nat) (h : w &&& BitVec.ofNat 40 mask = BitVec.ofNat 40 bits)
    (hm : mask < 2 ^ 40) (hb : bits < 2 ^ 40) : TableRow.admits ⟨40, bits, mask⟩ (.command w) := by
  refine ⟨rfl, ?_⟩
  have := congrArg BitVec.toNat h
  rwa [BitVec.toNat_and, BitVec.toNat_ofNat, BitVec.toNat_ofNat, Nat.mod_eq_of_lt hm, Nat.mod_eq_of_lt hb] at this

/-- A frame that has a row's fixed bits is admitted by the row. -/
theorem admits_frame {f : Frame} (bits mask : Nat) (h : f &&& BitVec.ofNat 16 mask = BitVec.ofNat 16 bits)
    (hm : mask < 2 ^ 16) (hb : bits < 2 ^ 16) : TableRow.admits ⟨16, bits, mask⟩ (.frame f) := by
  refine ⟨rfl, ?_⟩
  have := congrArg BitVec.toNat h
  rwa [BitVec.toNat_and, BitVec.toNat_ofNat, BitVec.toNat_ofNat, Nat.mod_eq_of_lt hm, Nat.mod_eq_of_lt hb] at this

namespace EncodesInRow

/-- The bits of the encoded instruction have the values its row of spec/opcode_table.json fixes. -/
def Statement (i : Instr) : Prop := (tableRow i).admits (encode i)

theorem execR (addr : Byte) : Statement (.execR addr) := by
  refine admits_command _ _ ?_ (by decide) (by decide)
  ext i hi
  simp only [commandWord, BitVec.getElem_append, encodeFrame, BitVec.getElem_and]
  interval_cases i <;> simp

theorem execW (addr : Byte) (data : Byte) : Statement (.execW addr data) := by
  refine admits_command _ _ ?_ (by decide) (by decide)
  ext i hi
  simp only [commandWord, BitVec.getElem_append, encodeFrame, BitVec.getElem_and]
  interval_cases i <;> simp

theorem getScratch : Statement .getScratch := by
  exact ⟨rfl, by decide⟩

theorem setScratch (v : Byte) : Statement (.setScratch v) := by
  refine admits_command _ _ ?_ (by decide) (by decide)
  ext i hi
  simp only [commandWord, BitVec.getElem_append, BitVec.getElem_and]
  interval_cases i <;> simp

theorem setPwrmodePowerdown : Statement .setPwrmodePowerdown := by
  exact ⟨rfl, by decide⟩

theorem setPwrmodeVregon : Statement .setPwrmodeVregon := by
  exact ⟨rfl, by decide⟩

theorem setPwrmodeStandby : Statement .setPwrmodeStandby := by
  exact ⟨rfl, by decide⟩

theorem setPwrmodeSynthtx : Statement .setPwrmodeSynthtx := by
  exact ⟨rfl, by decide⟩

theorem setPwrmodeFulltx : Statement .setPwrmodeFulltx := by
  exact ⟨rfl, by decide⟩

theorem setPllloop (flt : BitVec 2) (cpi : BitVec 2) (bs : BitVec 1) (fs : BitVec 1) : Statement (.setPllloop flt cpi bs fs) := by
  refine admits_command _ _ ?_ (by decide) (by decide)
  ext i hi
  simp only [commandWord, BitVec.getElem_append, BitVec.getElem_and]
  interval_cases i <;> simp

theorem setFreq (val : BitVec 32) : Statement (.setFreq val) := by
  refine admits_command _ _ ?_ (by decide) (by decide)
  ext i hi
  simp only [commandWord, BitVec.getElem_append, BitVec.getElem_and]
  interval_cases i <;> simp

theorem getFreq : Statement .getFreq := by
  exact ⟨rfl, by decide⟩

theorem setTxpwr : Statement .setTxpwr := by
  exact ⟨rfl, by decide⟩

theorem setTxrate (val : BitVec 32) : Statement (.setTxrate val) := by
  refine admits_command _ _ ?_ (by decide) (by decide)
  ext i hi
  simp only [commandWord, BitVec.getElem_append, BitVec.getElem_and]
  interval_cases i <;> simp

theorem setMod (sel : Byte) : Statement (.setMod sel) := by
  refine admits_command _ _ ?_ (by decide) (by decide)
  ext i hi
  simp only [commandWord, BitVec.getElem_append, BitVec.getElem_and]
  interval_cases i <;> simp

theorem getMod : Statement .getMod := by
  exact ⟨rfl, by decide⟩

theorem setFraming (sel : Byte) : Statement (.setFraming sel) := by
  refine admits_command _ _ ?_ (by decide) (by decide)
  ext i hi
  simp only [commandWord, BitVec.getElem_append, BitVec.getElem_and]
  interval_cases i <;> simp

theorem setEncoding (sel : Byte) : Statement (.setEncoding sel) := by
  refine admits_command _ _ ?_ (by decide) (by decide)
  ext i hi
  simp only [commandWord, BitVec.getElem_append, BitVec.getElem_and]
  interval_cases i <;> simp

theorem setSysclkLed (on : BitVec 1) : Statement (.setSysclkLed on) := by
  refine admits_command _ _ ?_ (by decide) (by decide)
  ext i hi
  simp only [commandWord, BitVec.getElem_append, BitVec.getElem_and]
  interval_cases i <;> simp

theorem getPincfg1 : Statement .getPincfg1 := by
  exact ⟨rfl, by decide⟩

theorem getPincfg2 : Statement .getPincfg2 := by
  exact ⟨rfl, by decide⟩

theorem txByte (v : Byte) : Statement (.txByte v) := by
  refine admits_command _ _ ?_ (by decide) (by decide)
  ext i hi
  simp only [commandWord, BitVec.getElem_append, BitVec.getElem_and]
  interval_cases i <;> simp

theorem autorange : Statement .autorange := by
  exact ⟨rfl, by decide⟩

theorem frameRead (addr : Byte) : Statement (.frameRead addr) := by
  refine admits_frame _ _ ?_ (by decide) (by decide)
  ext i hi
  simp only [encodeFrame, BitVec.getElem_and]
  interval_cases i <;> simp

theorem frameWrite (addr : Byte) (data : Byte) : Statement (.frameWrite addr data) := by
  refine admits_frame _ _ ?_ (by decide) (by decide)
  ext i hi
  simp only [encodeFrame, BitVec.getElem_and]
  interval_cases i <;> simp

end EncodesInRow

end Sys2Proof.Laws
end

