-- ==== Sys2Proof/Tests/Slice0.lean ====
section
/-! SUPPORT. Small checks on fixed values (spec/95_test_vectors.md and the tables of the spec), and for every obligation
with hypotheses a theorem that some state and operands meet them. -/

namespace Sys2Proof.Tests

open Sys2Proof Sys2Proof.Machine

/-! ### Well-formedness: each check refuses an ill-formed term -/

theorem test_wellFormed_execR : (Instr.execR 0x80).wellFormed = false := by decide
theorem test_wellFormed_execW : (Instr.execW 0xFF 0x00).wellFormed = false := by decide
theorem test_wellFormed_frameRead : (Instr.frameRead 0x80).wellFormed = false := by decide
theorem test_wellFormed_frameWrite : (Instr.frameWrite 0x80 0x5A).wellFormed = false := by decide
theorem test_wellFormed_last_address : (Instr.execR 0x7F).wellFormed = true := by decide

/-! ### Decoding: a word written out from the encoding of every constructor (30_encoding.md R57, R58, R60, R69;
95_test_vectors.md 2.1, 2.4, 2.5) -/

theorem test_decode_execR : decodeTableWord 40 0x0100002D00 = some (.execR 0x2D) := by decide
theorem test_decode_execW : decodeTableWord 40 0x010000FFFF = some (.execW 0x7F 0xFF) := by decide
theorem test_decode_getScratch : decodeTableWord 40 0x0200000000 = some .getScratch := by decide
theorem test_decode_setScratch : decodeTableWord 40 0x030000005A = some (.setScratch 0x5A) := by decide
theorem test_decode_powerdown : decodeTableWord 40 0x0400000000 = some .setPwrmodePowerdown := by decide
theorem test_decode_vregon : decodeTableWord 40 0x0400000004 = some .setPwrmodeVregon := by decide
theorem test_decode_standby : decodeTableWord 40 0x0400000005 = some .setPwrmodeStandby := by decide
theorem test_decode_synthtx : decodeTableWord 40 0x040000000C = some .setPwrmodeSynthtx := by decide
theorem test_decode_fulltx : decodeTableWord 40 0x040000000D = some .setPwrmodeFulltx := by decide
theorem test_decode_setPllloop : decodeTableWord 40 0x0500000026 = some (.setPllloop 2 1 0 1) := by decide
theorem test_decode_setFreq : decodeTableWord 40 0x0619DD1800 = some (.setFreq 433920000) := by decide
theorem test_decode_getFreq : decodeTableWord 40 0x0700000000 = some .getFreq := by decide
theorem test_decode_setTxpwr : decodeTableWord 40 0x0800000000 = some .setTxpwr := by decide
theorem test_decode_setTxrate : decodeTableWord 40 0x0900002580 = some (.setTxrate 9600) := by decide
theorem test_decode_setMod : decodeTableWord 40 0x0A000000FF = some (.setMod 255) := by decide
theorem test_decode_getMod : decodeTableWord 40 0x0B00000000 = some .getMod := by decide
theorem test_decode_setFraming : decodeTableWord 40 0x0C00000002 = some (.setFraming 2) := by decide
theorem test_decode_setEncoding : decodeTableWord 40 0x0D00000007 = some (.setEncoding 7) := by decide
theorem test_decode_setSysclkLed : decodeTableWord 40 0x0E00000001 = some (.setSysclkLed 1) := by decide
theorem test_decode_getPincfg1 : decodeTableWord 40 0x0F00000000 = some .getPincfg1 := by decide
theorem test_decode_getPincfg2 : decodeTableWord 40 0x1000000000 = some .getPincfg2 := by decide
theorem test_decode_txByte : decodeTableWord 40 0x11000000A5 = some (.txByte 0xA5) := by decide
theorem test_decode_autorange : decodeTableWord 40 0x1200000000 = some .autorange := by decide
theorem test_decode_frameRead : decodeTableWord 16 0x2D00 = some (.frameRead 0x2D) := by decide
theorem test_decode_frameWrite : decodeTableWord 16 0xA353 = some (.frameWrite 0x23 0x53) := by decide

/-- 95_test_vectors.md 2.4 and 2.9: the words that spell no command. -/
theorem test_decode_illegal :
    [0x0000000000, 0x1300000000, 0xFFFFFFFFFF, 0x0100002D01, 0x0100010000, 0x0200000001, 0x0400000006, 0x0400000015,
      0x0500000040, 0x0A00000100, 0x0E00000002, 0x0A00000101].all (fun w => decodeTableWord 40 w == none) = true := by
  decide

/-- 95_test_vectors.md 2.1: the frames of two accesses, and the bytes they put on the wire. -/
theorem test_frames :
    encodeFrame 0x01 (.write 0x5A) = 0x815A ∧ encodeFrame 0x7F .read = 0x7F00 ∧ encodeFrame 0x7F (.write 0xFF) = 0xFFFF ∧
      frameHigh 0xAD08 = 0xAD ∧ frameLow 0xAD08 = 0x08 := by decide

/-- R100: a wider address is masked to 7 bits. -/
theorem test_frame_masks_address : encodeFrame 0x81 .read = 0x0100 := by decide

/-! ### Status, packings, quantizer (95_test_vectors.md 2.2, 2.5, 2.6) -/

theorem test_status_fields :
    (decodeStatus 0x40).fifoStatus = 1 ∧ (decodeStatus 0x80).fifoStatus = 2 ∧ (decodeStatus 0xC0).fifoStatus = 3 := by decide

theorem test_status_flags :
    (decodeStatusAt (fun _ => 6) 0x3F).pllLock = false ∧ (decodeStatusAt (fun _ => 5) 0x3F).fifoEmpty = true := by decide

theorem test_pllloop_default :
    packPllLoopAt defaultLayout 2 1 0 1 = 0x26 ∧ packPllLoopAt defaultLayout 1 2 1 0 = 0x19 ∧
      packPllLoopAt defaultLayout 3 3 1 1 = 0x3F := by decide

theorem test_freqWord :
    freqWord 433920000 = 0x1B1EB853 ∧ freqWord 7812 = 0x2000 ∧ freqWord 7813 = 0x2002 ∧ freqWord 0 = 1 ∧
      freqWord 4095999999 = 0 ∧ freqWord 4294967295 = 0x0C6F7A0B := by decide +kernel

theorem test_rateWord :
    rateWord 9600 = 0x002753 ∧ rateWord 115200 = 0x01D7DD ∧ rateWord 15999998 = 0xFFFFFF ∧ rateWord 20000000 = 0x400001 := by
  decide +kernel

theorem test_assemble : assemble [0x36, 0x44, 0xB8, 0x53] = 0x3644B853 := by decide

/-! ### One step of a command -/

/-- A block just out of reset, with these answers scripted. -/
def ready (ds : List DriveAnswer) (es : List ExchangeAnswer) : State :=
  { State.reset with env := { Env.initial with drives := ds, exchanges := es } }

/-- The same block with an instruction in progress. -/
def midway (i : Instr) (k : Nat) (l : Locals) (cs : CsLevel) (ds : List DriveAnswer) (es : List ExchangeAnswer) : State :=
  { ready ds es with cs := cs, phase := .busy i k l }

/-- The outcome is exactly the next state `t`. -/
def answers (o : Host.Outcome State Fault Refusal) (t : State) : Bool :=
  match o with
  | .next s => s == t
  | _ => false

/-- The locals after `n` transactions, the last of which received `status` and `data`. -/
def between (n : Nat) (status data : Byte) : Locals := { Locals.fresh with txns := n, status := status, data := data }

/-- The frame of a command's first transaction, as the first step leaves it. -/
def firstFrame (i : Instr) : Option Frame :=
  match exec i (ready [.returns .ok] []) with
  | .next { cs := .low, phase := .busy _ 1 l, .. } => some l.frame
  | _ => none

/-- The response of a command that has completed `n` transactions. -/
def lastResponse (i : Instr) (n : Nat) (status data : Byte) : Option Response :=
  match exec i (midway i (4 * n) (between n status data) .high [] []) with
  | .next t => t.resp
  | _ => none

/-- 95_test_vectors.md 2.5, 2.7, 2.8: the first frame of each command. -/
theorem test_first_frames :
    [Instr.execR 0x2D, .execW 0x50 0x11, .getScratch, .setScratch 0xFF, .setPwrmodePowerdown, .setPwrmodeVregon,
      .setPwrmodeStandby, .setPwrmodeSynthtx, .setPwrmodeFulltx, .setFreq 433920000, .getFreq, .setTxpwr, .setTxrate 115200,
      .setMod 0, .getMod, .setSysclkLed 1, .getPincfg1, .txByte 0xA5, .autorange, .frameRead 0x7F,
      .frameWrite 0x2D 0x08].map firstFrame =
    [0x2D00, 0xD011, 0x0100, 0x81FF, 0x8200, 0x8204, 0x8205, 0x820C, 0x820D, 0xA01B, 0x2000, 0xB00F, 0xB101, 0x9000, 0x1000,
      0x8C01, 0x0C00, 0x85A5, 0xAD08, 0x7F00, 0xAD08].map some := by decide +kernel

/-- 95_test_vectors.md 2.5: the responses of the commands of one transaction. -/
theorem test_last_responses :
    [(Instr.execW 0x01 0x5A, 0x00, 0x33), (.getScratch, 0x00, 0x5A), (.setScratch 0xFF, 0x07, 0x11), (.getMod, 0x00, 0x00),
      (.getMod, 0x00, 0x80), (.getPincfg2, 0x01, 0x02), (.txByte 0x00, 0xC0, 0x77)].map
        (fun p => lastResponse p.1 1 p.2.1 p.2.2) =
    [⟨.ok, true, 0x00, 0x33⟩, ⟨.ok, false, 0, 0x5A⟩, ⟨.ok, false, 0, 0⟩, ⟨.ok, false, 0, 0⟩, ⟨.unrecognizedState, false, 0, 0x80⟩,
      ⟨.ok, false, 0, 0x02⟩, ⟨.ok, true, 0xC0, 0⟩].map some := by decide

/-- 95_test_vectors.md 2.8: what a poll's byte decides, at poll index 0. -/
theorem test_polls :
    [0x08, 0xCF, 0x20, 0xE0, 0xEF].map (fun v => (lastResponse .autorange 2 0xFF v).map (fun r => (r.code, r.data))) =
    [(.ok, 0), (.ok, 0), (.autoRangingError, 0), (.autoRangingError, 0), (.autoRangingError, 0)].map some := by decide

/-- 95_test_vectors.md 2.8, 0x30 × 3000: the last busy poll ends the command. -/
theorem test_poll_bound :
    answers (exec .autorange { midway .autorange 12004 (between 3001 0 0x30) .high [] [] with poll := 2999 })
      { ready [] [] with poll := 3000, resp := some ⟨.autoRangingTimeout, false, 0, 0⟩ } = true := by decide

/-- 95_test_vectors.md 2.5, SET_MOD 1: no event, UnsupportedMode. -/
theorem test_unsupported :
    answers (exec (.setMod 1) (ready [.returns .err] [])) { ready [.returns .err] [] with
      resp := some ⟨.unsupportedMode, false, 0, 0⟩ } = true := by decide

/-- 95_test_vectors.md 2.3: the final CsHigh fails. -/
theorem test_final_drive_fails :
    (match exec (.execW 0x01 0x5A) (midway (.execW 0x01 0x5A) 3 { Locals.fresh with point := .release } .low
        [.returns .err] []) with
      | .next t => t.cs == .unknown && t.env.trace == [.drive .high .err]
      | _ => false) = true := by decide

/-- 70_reset_and_hazards.md R170: a reset in the middle of a transaction. -/
theorem test_reset_midway :
    answers (step { midway .getFreq 5 { Locals.fresh with point := .sendHigh, txns := 1 } .low [] [] with
      env := { Env.initial with resetLine := true } }) State.reset = true := by decide

/-- The word placed on the command port is the first thing the block does after reset (R171). -/
theorem test_first_word_after_reset :
    answers (step (State.reset.withFetchWord 40 0x0A00000003)) { State.reset with
      resp := some ⟨.unsupportedMode, false, 0, 0⟩ } = true := by decide

/-- The frame placed where the next step takes it is the instruction that runs (log entry 8). -/
theorem test_first_frame_after_reset :
    step (State.reset.withFetchWord 16 0x815A) = exec (.frameWrite 0x01 0x5A) (accept (.frameWrite 0x01 0x5A) State.reset) := by
  rfl

theorem test_illegal_word_after_reset :
    answers (step (State.reset.withFetchWord 40 0x1300000000)) { State.reset with
      resp := some ⟨.illegalCommand, false, 0, 0⟩ } = true := by decide

theorem test_packed_response : packResponse ⟨.unrecognizedState, false, 0, 0x80⟩ = 0x500000000080 := by decide

/-! ### Witnesses: for every obligation with hypotheses, a state and operands that meet them -/

/-- A block out of reset whose collaborators answer these transactions, all Ok. -/
def readyFor (txs : List Txn) : State := ready (okDrives (2 * txs.length)) (okExchanges txs)

theorem readyFor_meets (txs : List Txn) : Accepting (readyFor txs) ∧ Answers (readyFor txs) txs [] [] :=
  ⟨⟨rfl, rfl, rfl⟩, (List.append_nil _).symm, (List.append_nil _).symm⟩

/-- The hypotheses inside `CompletesWith`, met for these transactions. -/
abbrev Met (txs : List Txn) : Prop := Accepting (readyFor txs) ∧ Answers (readyFor txs) txs [] []

theorem witness_DecodeOfEncode : (Instr.execW 0x7F 0xFF).wellFormed = true ∧ (Instr.frameRead 0x00).wellFormed = true := by
  decide

theorem witness_EncodeOfDecode :
    decode (.command 0x0100002D00) = .ok (.execR 0x2D) ∧ decode (.frame 0xFFFF) = .ok (.frameWrite 0x7F 0xFF) := by decide

theorem witness_LegalWordsAreTableRows :
    (decodeCommand 0x050000003F).toOption = some (.setPllloop 3 3 1 1) ∧
      (decodeCommand 0x0500000040).toOption = none := by decide

/-- A block with words on its command port. -/
def withCmds (ws : List CommandWord) (s : State) : State := { s with env := { s.env with cmds := ws } }

theorem witness_StepRunsTheDecodedInstruction_port :
    Accepting (withCmds [0x12_0000_0000] State.reset) ∧
      (withCmds [0x12_0000_0000] State.reset).env.cmds = 0x12_0000_0000 :: [] ∧
      decodeCommand 0x12_0000_0000 = .ok .autorange := ⟨⟨rfl, rfl, rfl⟩, rfl, by decide⟩

/-- A GET_FREQ whose second read has driven chip-select Low. -/
def reading (ds : List DriveAnswer) (es : List ExchangeAnswer) : State :=
  midway .getFreq 5 { Locals.fresh with point := .sendHigh, txns := 1, frame := 0x2100, bytes := [0x36] } .low ds es

theorem witness_StepRunsTheDecodedInstruction_busy :
    (reading [] []).env.resetLine = false ∧
      (reading [] []).phase = .busy .getFreq 5
        { Locals.fresh with point := .sendHigh, txns := 1, frame := 0x2100, bytes := [0x36] } := ⟨rfl, rfl⟩

theorem witness_IllegalWordIsAnswered :
    Accepting (withCmds [0x0100002D01] State.reset) ∧ (withCmds [0x0100002D01] State.reset).env.cmds = 0x0100002D01 :: [] ∧
      decodeCommand 0x0100002D01 = .error (.readWithData 0x01) := ⟨⟨rfl, rfl, rfl⟩, rfl, by decide⟩

theorem witness_BusyStepIsOneEventOrTheEnd :
    (reading [] []).env.resetLine = false ∧ ∃ l, (reading [] []).phase = .busy .getFreq 5 l := ⟨rfl, _, rfl⟩

theorem witness_CommandAcceptedOnlyWhenIdle :
    ∃ t, step (withCmds [0x0A00000003] State.reset) = .next t ∧ t.env.cmds ≠ (withCmds [0x0A00000003] State.reset).env.cmds :=
  ⟨_, rfl, by decide⟩

/-- A block holding a response. -/
def holding (r : Response) : State := { State.reset with resp := some r }

theorem witness_HeldResponseIsTaken :
    (holding okResponse).env.resetLine = false ∧ (holding okResponse).phase = .idle ∧
      (holding okResponse).resp = some okResponse := ⟨rfl, rfl, rfl⟩

theorem reading_inv (ds : List DriveAnswer) (es : List ExchangeAnswer) : BlockInv (reading ds es) := by
  simp only [reading, midway, ready, BlockInv, PointInv, ValuesInv, maxTxns, emitted]
  decide

theorem witness_EventsComeBeforeTheResponse :
    BlockInv (reading [] [.ok 0x00]) ∧
      ∃ t, step (reading [] [.ok 0x00]) = .next t ∧ t.env.trace ≠ (reading [] [.ok 0x00]).env.trace :=
  ⟨reading_inv _ _, _, rfl, by decide⟩

theorem witness_OutOfTurnCommandsAreRefused :
    (∃ k l, (reading [] []).phase = .busy .getFreq k l ∧ Instr.getFreq ≠ .autorange) ∧
      (holding okResponse).phase = .idle ∧ (holding okResponse).resp = some okResponse :=
  ⟨⟨5, _, rfl, by decide⟩, rfl, rfl⟩

theorem witness_ResetLeavesTheStatedState : { Env.initial with resetLine := true }.resetLine = true := rfl

theorem witness_CsFollowsTheDrives :
    (reading [] [.err]).env.resetLine = false ∧ ∃ t, step (reading [] [.err]) = .next t := ⟨rfl, _, rfl⟩

theorem witness_OneEngineForEveryCommand :
    (∃ l, (reading [] [.ok 7]).phase = .busy .getFreq 5 l ∧ l.point ≠ .between) ∧
      ∃ t, exec .getFreq (reading [] [.ok 7]) = .next t := ⟨⟨_, rfl, by decide⟩, _, rfl⟩

theorem witness_ExecCompletes : isRegAddr 0x7F = true ∧ Met [⟨(sentBytes 0x7F .read).1, (sentBytes 0x7F .read).2, 1, 2⟩] :=
  ⟨by decide, readyFor_meets _⟩

theorem witness_WireFramesComplete :
    isRegAddr 0x00 = true ∧ Met [⟨(sentBytes 0x00 (.write 0xFF)).1, (sentBytes 0x00 (.write 0xFF)).2, 1, 2⟩] :=
  ⟨by decide, readyFor_meets _⟩

theorem witness_AcceptedCommandDrivesLow :
    Accepting (ready [.returns .err] []) ∧ firstAccess (.setMod 0) = some (0x10, .write 0x00) ∧
      (ready [.returns .err] []).env.drives = .returns .err :: [] := ⟨⟨rfl, rfl, rfl⟩, by decide, rfl⟩

theorem witness_BusFaultTraces :
    isRegAddr 0x7F = true ∧ Accepting (ready [.returns .err, .returns .err] []) ∧
      (ready [.returns .err, .returns .err] []).env.drives = .returns .err :: .returns .err :: [] ∧
      (ready [.returns .ok, .returns .ok] [.err]).env.exchanges = .err :: [] ∧
      (ready [.returns .ok, .returns .ok] [.ok 0xFF, .err]).env.exchanges = .ok 0xFF :: .err :: [] ∧
      (ready [.returns .ok, .returns .err] [.ok 0xFF, .ok 0]).env.drives = .returns .ok :: .returns .err :: [] ∧
      (ready [.returns .ok, .returns .err] [.ok 0xFF, .ok 0]).env.exchanges = .ok 0xFF :: .ok 0 :: [] :=
  ⟨by decide, ⟨rfl, rfl, rfl⟩, rfl, rfl, rfl, rfl, rfl⟩

/-- A SET_TXRATE at a point of its second transaction. -/
def writing (p : Point) (ds : List DriveAnswer) (es : List ExchangeAnswer) : State :=
  midway (.setTxrate 9600) 5 { Locals.fresh with point := p, txns := 1, frame := 0xB227, word := 0x2753 } .low ds es

theorem witness_AnyFailureEndsTheCommand :
    (driveAnswer (writing .between [.returns .err] []) = .returns .err) ∧
      (driveAnswer (writing .restore [.returns .err] []) = .returns .err) ∧
      (driveAnswer (writing .release [.returns .err] []) = .returns .err) ∧
      (exchangeAnswer (writing .sendHigh [.returns .ok] [.err]) = .err ∧
        driveAnswer (writing .sendHigh [.returns .ok] [.err]) = .returns .ok) ∧
      exchangeAnswer (writing .sendLow [.returns .ok] [.err]) = .err ∧
      driveAnswer (writing .sendLow [.returns .ok] [.err]) = .returns .ok := ⟨rfl, rfl, rfl, ⟨rfl, rfl⟩, rfl, rfl⟩

theorem witness_HangingExchangeHangs :
    BlockInv (reading [] [.never]) ∧ (reading [] [.never]).env.resetLine = false ∧
      exchangeAnswer (reading [] [.never]) = .never := ⟨reading_inv _ _, rfl, rfl⟩

theorem witness_ReadCommandsComplete : Met [⟨0x01, 0x00, 0x00, 0x5A⟩] ∧ Met [⟨0x0C, 0x00, 0x00, 0xFF⟩] ∧
    Met [⟨addrPincfg2, 0x00, 0xFF, 0x00⟩] := ⟨readyFor_meets _, readyFor_meets _, readyFor_meets _⟩

theorem witness_WriteCommandsComplete : Met [⟨0x81, 0xFF, 0, 0⟩] ∧ Met [⟨0xB0, 0x0F, 0, 0⟩] ∧ Met [⟨0x8C, 0x01, 0, 0⟩] ∧
    Met [⟨0x8C, 0x00, 0, 0⟩] := ⟨readyFor_meets _, readyFor_meets _, readyFor_meets _, readyFor_meets _⟩

theorem witness_SetPwrmodeCompletes : Met [⟨0x82, 0x00, 0, 0⟩] ∧ Met [⟨0x82, 0x0D, 0xFF, 0xFF⟩] :=
  ⟨readyFor_meets _, readyFor_meets _⟩

theorem witness_SetPllloopCompletes : Met [⟨0xAC, packPllLoop 3 3 1 1, 0, 0⟩] := readyFor_meets _

theorem witness_SelectorCommandsComplete : Met [⟨0x90, 0x00, 0, 0⟩] ∧ Met [⟨0x80#8 ||| addrFraming, 0x00, 0, 0⟩] ∧
    Met [⟨0x80#8 ||| addrEncoding, 0x00, 0, 0⟩] := ⟨readyFor_meets _, readyFor_meets _, readyFor_meets _⟩

theorem witness_UnsupportedSelectorsRaise :
    Accepting State.reset ∧ (0x01 : Byte) ≠ 0 ∧ (0xFF : Byte) ≠ 0 ∧
      Instr.setEncoding 0xFF ∈ [Instr.setMod 0xFF, .setFraming 0xFF, .setEncoding 0xFF] := ⟨⟨rfl, rfl, rfl⟩, by decide⟩

theorem witness_GetModDecodes : Met [⟨0x10, 0x00, 0, 0x00⟩] ∧ Met [⟨0x10, 0x00, 0, 0x01⟩] ∧ Met [⟨0x10, 0x00, 0, 0xFF⟩] :=
  ⟨readyFor_meets _, readyFor_meets _, readyFor_meets _⟩

theorem witness_TxByteCompletes : Met [⟨0x85, 0xA5, 0x40, 0x00⟩] := readyFor_meets _

theorem witness_RegisterAddresses : regAddr .freq3 = regAddr .freq3 ∧ regAddr .framing = regAddr .framing := ⟨rfl, rfl⟩

/-- The last value of each range and the first beyond it (R129, R130, R131). -/
theorem witness_quantizer_ranges :
    (4095999998 : BitVec 32).toNat ≤ 4095999998 ∧ 4095999999 ≤ (4095999999 : BitVec 32).toNat ∧
      (15999998 : BitVec 32).toNat ≤ 15999998 ∧ 15999999 ≤ (15999999 : BitVec 32).toNat ∧
      (0 : BitVec 32).toNat ≤ (4095999998 : BitVec 32).toNat ∧ (0 : BitVec 32).toNat ≤ (15999998 : BitVec 32).toNat := by decide

/-- R128's table, on both sides of one half (95_test_vectors.md 2.6, 7,812 and 7,813), and the largest input. -/
theorem witness_QuantizeIsHalfPlusCeiling :
    Int.fract (((7812 : ℕ) : ℚ) * 2 ^ 24 / 16000000) ≤ 1 / 2 ∧ 1 / 2 < Int.fract (((7813 : ℕ) : ℚ) * 2 ^ 24 / 16000000) ∧
      4294967295 < 2 ^ 32 := by
  norm_num [Int.fract]

theorem witness_SetFreqCompletes : Met [⟨0xA0, 0x1B, 0, 0⟩, ⟨0xA1, 0x1E, 0, 0⟩, ⟨0xA2, 0xB8, 0, 0⟩, ⟨0xA3, 0x53, 0, 0⟩] :=
  readyFor_meets _

theorem witness_GetFreqCompletes : Met [⟨0x20, 0, 0, 0x36⟩, ⟨0x21, 0, 0, 0x44⟩, ⟨0x22, 0, 0, 0xB8⟩, ⟨0x23, 0, 0, 0x53⟩] :=
  readyFor_meets _

theorem witness_SetTxrateCompletes : Met [⟨0xB1, 0x00, 0, 0⟩, ⟨0xB2, 0x27, 0, 0⟩, ⟨0xB3, 0x53, 0, 0⟩] := readyFor_meets _

/-- The first and the last write that can fail. -/
theorem witness_TornFrequencyWord (val : BitVec 32) :
    (0 < 4 ∧ Accepting (ready [.returns .ok, .returns .ok] [.err]) ∧
      (ready [.returns .ok, .returns .ok] [.err]).env.drives = okDrives (2 * 0) ++ .returns .ok :: .returns .ok :: [] ∧
      (ready [.returns .ok, .returns .ok] [.err]).env.exchanges = okExchanges [] ++ .err :: []) ∧
    (3 < 4 ∧ ∃ txs : List Txn, txs.length = 3 ∧
      ∃ s, Accepting s ∧ s.env.drives = okDrives (2 * 3) ++ .returns .ok :: .returns .err :: [] ∧
        s.env.exchanges = okExchanges txs ++ .err :: []) :=
  ⟨⟨by decide, ⟨rfl, rfl, rfl⟩, rfl, rfl⟩, by decide,
    [⟨0xA0, (freqWord val).extractLsb' 24 8, 1, 2⟩, ⟨0xA1, (freqWord val).extractLsb' 16 8, 3, 4⟩,
      ⟨0xA2, (freqWord val).extractLsb' 8 8, 5, 6⟩], rfl, ready _ _, ⟨rfl, rfl, rfl⟩, rfl, rfl⟩

theorem witness_SetFreqThenGetFreq :
    ∃ (s : State) (wr rd : List (Byte × Byte)), Accepting s ∧ s.env.hostReady = true ∧
      s.env.cmds = (0x06#8 ++ (433920000 : BitVec 32)) :: 0x0700000000 :: [] ∧ wr.length = 4 ∧
      rd.map Prod.snd = [(freqWord 433920000).extractLsb' 24 8, (freqWord 433920000).extractLsb' 16 8,
        (freqWord 433920000).extractLsb' 8 8, (freqWord 433920000).extractLsb' 0 8] ∧
      s.env.drives = okDrives 16 ++ [] ∧
      s.env.exchanges = (wr ++ rd).flatMap (fun p => [.ok p.1, .ok p.2]) ++ [] :=
  ⟨withCmds [0x06#8 ++ (433920000 : BitVec 32), 0x0700000000] (ready _ _), [(0, 0), (0, 0), (0, 0), (0, 0)],
    [(0, (freqWord 433920000).extractLsb' 24 8), (0, (freqWord 433920000).extractLsb' 16 8),
      (0, (freqWord 433920000).extractLsb' 8 8), (0, (freqWord 433920000).extractLsb' 0 8)],
    ⟨rfl, rfl, rfl⟩, rfl, rfl, rfl, rfl, rfl, rfl⟩

/-- An AUTORANGE that has just read `v`, its poll index `p`. -/
def polled (v : Byte) (p : Nat) : State :=
  { midway .autorange (4 * (p + 2)) (between (p + 2) 0 v) .high [.returns .ok] [] with poll := p }

/-- The bits of the four rows, and the poll index on both sides of the bound. -/
theorem witness_PollTransitions :
    (polled 0x30 2998).phase = .busy .autorange 12000 (between 3000 0 0x30) ∧ (between 3000 0 0x30).point = .between ∧
      2 ≤ (between 3000 0 0x30).txns ∧ (between 3000 0 0x30).data.getLsbD 4 = true ∧ (polled 0x30 2998).poll + 1 < 3000 ∧
      driveAnswer (polled 0x30 2998) = .returns .ok ∧ 3000 ≤ (polled 0x10 2999).poll + 1 ∧
      ((0x20 : Byte).getLsbD 4 = false ∧ (0x20 : Byte).getLsbD 5 = true) ∧
      (0xCF : Byte).getLsbD 4 = false ∧ (0xCF : Byte).getLsbD 5 = false :=
  ⟨rfl, rfl, by decide, by decide, by decide, rfl, by decide, by decide, by decide, by decide⟩

/-- Busy for the first 2999 polls, clear on the 3000th. -/
theorem witness_AutorangeAfterBusyPolls :
    ∃ (polls : List (Byte × Byte)) (last : Byte × Byte), polls.length < 3000 ∧ (∀ p ∈ polls, p.2.getLsbD 4 = true) ∧
      last.2.getLsbD 4 = false ∧ Met (⟨0xAD, 0x08, 0, 0⟩ :: (polls ++ [last]).map fun p => ⟨0x2D, 0x00, p.1, p.2⟩) :=
  ⟨List.replicate 2999 (0, 0x10), (0, 0x00), by rw [List.length_replicate]; decide,
    fun p hp => by rw [List.eq_of_mem_replicate hp]; decide, by decide, readyFor_meets _⟩

theorem witness_AutorangeTimesOutAfter3000Polls :
    ∃ polls : List (Byte × Byte), polls.length = 3000 ∧ (∀ p ∈ polls, p.2.getLsbD 4 = true) ∧
      Met (⟨0xAD, 0x08, 0, 0⟩ :: polls.map fun p => ⟨0x2D, 0x00, p.1, p.2⟩) :=
  ⟨List.replicate 3000 (0, 0x30), List.length_replicate, fun p hp => by rw [List.eq_of_mem_replicate hp]; decide,
    readyFor_meets _⟩

theorem witness_AutorangeBusFault :
    ∃ (polls : List (Byte × Byte)) (s : State), polls.length < 3000 ∧ (∀ p ∈ polls, p.2.getLsbD 4 = true) ∧ Accepting s ∧
      s.env.drives = okDrives (2 * (polls.length + 1)) ++ .returns .ok :: .returns .err :: [] ∧
      s.env.exchanges = okExchanges (⟨0xAD, 0x08, 0, 0⟩ :: polls.map fun p => ⟨0x2D, 0x00, p.1, p.2⟩) ++ .err :: [] :=
  ⟨[(0, 0x10), (0, 0x10)], ready _ _, by decide, by simp, ⟨rfl, rfl, rfl⟩, rfl, rfl⟩

theorem witness_StepKeepsBlockInv :
    BlockInv (reading [] [.ok 0x00]) ∧ ∃ t, step (reading [] [.ok 0x00]) = .next t := ⟨reading_inv _ _, _, rfl⟩

theorem witness_StepKeepsPairing :
    PairingInv (withCmds [0x0200000000] State.reset) ∧ ∃ t, step (withCmds [0x0200000000] State.reset) = .next t :=
  ⟨⟨rfl, rfl⟩, _, rfl⟩

theorem witness_EveryCommandEnds :
    let s := reading (okDrives 12) (List.replicate 12 (.ok 0x00))
    BlockInv s ∧ s.env.resetLine = false ∧ stepsLeft s ≤ s.env.drives.length ∧ stepsLeft s ≤ s.env.exchanges.length ∧
      .never ∉ s.env.drives ∧ .never ∉ s.env.exchanges :=
  ⟨reading_inv _ _, rfl, by decide, by decide, by decide, by decide⟩

theorem witness_ResponsesHaveTheirShape :
    ∃ t r, step (withCmds [0x0D00000007] State.reset) = .next t ∧ (withCmds [0x0D00000007] State.reset).resp = none ∧
      t.resp = some r := ⟨_, _, rfl, rfl, rfl⟩

theorem witness_CsIsNeverRead : ∃ t, step (reading [] [.ok 0x00]) = .next t := ⟨_, rfl⟩

theorem witness_PollIsReadOnlyByAutorange :
    ¬ readsPoll (reading [] [.ok 0x00]) ∧ ∃ t, step (reading [] [.ok 0x00]) = .next t := ⟨(fun h => nomatch h.1), _, rfl⟩

end Sys2Proof.Tests
end

section
/-! SUPPORT. Proofs about the step, the command port and the block's own state (10_state.md): what one step of a command
and one step of the machine can do, said once, and the statements that follow from it. -/

namespace Sys2Proof.Machine

open Sys2Proof

/-! ### The effect of one step of a command -/

/-- What one step of a Busy command does to the state, the poll index apart: the locals are those it leaves. -/
inductive Effect where
  /-- The call does not return. -/
  | wait
  | drive (d : Drive) (r : DriveResult) (l : Locals)
  | exchange (out : Byte) (received : Option Byte) (l : Locals)
  | finish (r : Response)

/-- The effect, carried out for the command `i` with `k` events performed. -/
def Effect.apply (i : Instr) (k : Nat) (s : State) : Effect → State
  | .wait => s
  | .drive d r l => setBusy i (k + 1) l (doDrive d r s)
  | .exchange out b l => setBusy i (k + 1) l (doExchange out b s)
  | .finish r => Machine.finish r s

/-- The effect of the pseudocode's action between transactions, by the answer to the drive that starts one. -/
def startEffect : Action → DriveAnswer → Effect
  | .transact _ _ _ _, .never => .wait
  | .transact _ l addr mode, .returns .ok =>
    .drive .low .ok { l with point := .sendHigh, frame := encodeFrame addr mode }
  | .transact _ l addr mode, .returns .err =>
    .drive .low .err { l with point := .restore, frame := encodeFrame addr mode }
  | .respond _ r, _ => .finish r
  | .raise _ c v, _ => .finish (errorResponse c v)

/-- The effect of a step with locals `l`, chosen by the pseudocode's action and the answers of the collaborators. -/
def effectOf (l : Locals) (a : Action) (d : DriveAnswer) (x : ExchangeAnswer) : Effect :=
  match l.point with
  | .between => startEffect a d
  | .sendHigh =>
    match x with
    | .never => .wait
    | .ok b => .exchange (frameHigh l.frame) (some b) { l with point := .sendLow, status := b }
    | .err => .exchange (frameHigh l.frame) none { l with point := .restore }
  | .sendLow =>
    match x with
    | .never => .wait
    | .ok b => .exchange (frameLow l.frame) (some b) { l with point := .release, data := b }
    | .err => .exchange (frameLow l.frame) none { l with point := .restore }
  | .release =>
    match d with
    | .never => .wait
    | .returns .ok => .drive .high .ok { l with point := .between, txns := l.txns + 1 }
    | .returns .err => .drive .high .err { l with point := .failed }
  | .restore =>
    match d with
    | .never => .wait
    | .returns r => .drive .high r { l with point := .failed }
  | .failed => .finish (errorResponse .busFault 0)

/-- The poll index after the step: the action's, where the action is carried out. -/
def nextPoll (l : Locals) (a : Action) (d : DriveAnswer) (poll : Nat) : Nat :=
  match l.point, a, d with
  | .between, .transact _ _ _ _, .never => poll
  | .between, .transact p _ _ _, .returns _ => p
  | .between, .respond p _, _ => p
  | .between, .raise p _ _, _ => p
  | _, _, _ => poll

section
variable {i : Instr} {plan : Nat → Locals → Action} {k : Nat} {l : Locals} {s : State}

theorem act_eq_effect (hl : l.point = .between) (a : Action) :
    act i k a s =
      setPoll (nextPoll l a (driveAnswer s) s.poll) ((effectOf l a (driveAnswer s) (exchangeAnswer s)).apply i k s) := by
  cases a with
  | transact p l' addr mode =>
    rcases h : driveAnswer s with ⟨_ | _⟩ | _
    · simp only [act, beginTransact_ok h, effectOf, nextPoll, hl]; rfl
    · simp only [act, beginTransact_err h, effectOf, nextPoll, hl]; rfl
    · simp only [act, beginTransact_never h, effectOf, nextPoll, hl]; rfl
  | respond p r => simp only [act, effectOf, nextPoll, hl]; rfl
  | raise p c v => simp only [act, effectOf, nextPoll, hl]; rfl

/-- One step of a command reads of the state only its poll index and the two answers. -/
theorem advance_eq_effect :
    advance i plan k l s =
    setPoll (nextPoll l (plan s.poll l) (driveAnswer s) s.poll)
      ((effectOf l (plan s.poll l) (driveAnswer s) (exchangeAnswer s)).apply i k s) := by
  cases hl : l.point with
  | between => rw [advance_between hl, act_eq_effect hl]
  | sendHigh =>
    rw [advance_sendHigh hl]
    rcases h : exchangeAnswer s with b | _ | _
    · simp only [exchangeHigh_ok h, effectOf, nextPoll, hl]; rfl
    · simp only [exchangeHigh_err h, effectOf, nextPoll, hl]; rfl
    · simp only [exchangeHigh_never h, effectOf, nextPoll, hl]; rfl
  | sendLow =>
    rw [advance_sendLow hl]
    rcases h : exchangeAnswer s with b | _ | _
    · simp only [exchangeLow_ok h, effectOf, nextPoll, hl]; rfl
    · simp only [exchangeLow_err h, effectOf, nextPoll, hl]; rfl
    · simp only [exchangeLow_never h, effectOf, nextPoll, hl]; rfl
  | release =>
    rw [advance_release hl]
    rcases h : driveAnswer s with ⟨_ | _⟩ | _
    · simp only [releaseCs_ok h, effectOf, nextPoll, hl]; rfl
    · simp only [releaseCs_err h, effectOf, nextPoll, hl]; rfl
    · simp only [releaseCs_never h, effectOf, nextPoll, hl]; rfl
  | restore =>
    rw [advance_restore hl]
    rcases h : driveAnswer s with r | _
    · simp only [restoreCs_returns h, effectOf, nextPoll, hl]; rfl
    · simp only [restoreCs_never h, effectOf, nextPoll, hl]; rfl
  | failed => rw [advance_failed hl]; simp only [effectOf, nextPoll, hl]; rfl

theorem nextPoll_inFlight (hl : l.point ≠ .between) (a : Action) (d : DriveAnswer) (poll : Nat) :
    nextPoll l a d poll = poll := by
  cases hq : l.point with
  | between => exact absurd hq hl
  | _ => simp only [nextPoll, hq]

/-- Between transactions only a drive that does not return has no effect. -/
theorem startEffect_eq_wait {a : Action} {d : DriveAnswer} (h : startEffect a d = .wait) :
    d = .never ∧ ∃ p l addr m, a = .transact p l addr m := by
  cases a with
  | transact p l addr m =>
    rcases d with ⟨_ | _⟩ | _
    · cases h
    · cases h
    · exact ⟨rfl, p, l, addr, m, rfl⟩
  | respond p r => cases h
  | raise p c v => cases h

/-- A step without effect is a call that does not return. -/
theorem never_of_effectOf_eq_wait {a : Action} {d : DriveAnswer} {x : ExchangeAnswer} (h : effectOf l a d x = .wait) :
    d = .never ∨ x = .never := by
  cases hl : l.point with
  | between =>
    simp only [effectOf, hl] at h
    exact .inl (startEffect_eq_wait h).1
  | sendHigh => cases x <;> simp_all [effectOf]
  | sendLow => cases x <;> simp_all [effectOf]
  | release => rcases d with ⟨_ | _⟩ | _ <;> simp_all [effectOf]
  | restore => cases d <;> simp_all [effectOf]
  | failed => simp [effectOf, hl] at h

/-- A step without effect leaves the poll index too. -/
theorem nextPoll_of_effectOf_eq_wait {a : Action} {d : DriveAnswer} {x : ExchangeAnswer}
    (h : effectOf l a d x = .wait) (poll : Nat) : nextPoll l a d poll = poll := by
  by_cases hl : l.point = .between
  · simp only [effectOf, hl] at h
    obtain ⟨rfl, p, l', addr, m, rfl⟩ := startEffect_eq_wait h
    simp only [nextPoll, hl]
  · exact nextPoll_inFlight hl a d poll

/-- No effect of a command touches the command port. -/
@[simp] theorem Effect.apply_cmds (e : Effect) : (e.apply i k s).env.cmds = s.env.cmds := by cases e <;> rfl

theorem advance_cmds : (advance i plan k l s).env.cmds = s.env.cmds := by rw [advance_eq_effect]; simp

theorem runCommand_of_otherBusy {j : Instr} (hp : s.phase = .busy j k l) (hj : j ≠ i) :
    runCommand i plan s = .refused .interleaved := by
  simp [runCommand, hp, hj]

theorem runCommand_of_held {r : Response} (hp : s.phase = .idle) (hr : s.resp = some r) :
    runCommand i plan s = .refused .responseHeld := by
  simp [runCommand, hp, hr]

/-! ### Everything a step of the machine can do -/

/-- `Stepped s t`: by one of the rules of the step, `s` goes to `t`. -/
inductive Stepped (s : State) : State → Prop where
  | reset (hz : s.env.resetLine = true) : Stepped s (blockReset s)
  | busy {i : Instr} {k : Nat} {l : Locals} (hz : s.env.resetLine = false) (hp : s.phase = .busy i k l) :
      Stepped s (advance i (planOf i) k l s)
  | taken {r : Response} (hz : s.env.resetLine = false) (hp : s.phase = .idle) (hr : s.resp = some r)
      (hh : s.env.hostReady = true) : Stepped s (takeResponse r s)
  | held {r : Response} (hz : s.env.resetLine = false) (hp : s.phase = .idle) (hr : s.resp = some r)
      (hh : s.env.hostReady = false) : Stepped s s
  | noCommand (ha : Accepting s) (hc : s.env.cmds = []) : Stepped s s
  | accepted {w : CommandWord} {ws : List CommandWord} {i : Instr} (ha : Accepting s) (hc : s.env.cmds = w :: ws)
      (hd : decodeCommand w = .ok i) :
      Stepped s (advance i (planOf i) 0 Locals.fresh (accept i (dropCommand ws s)))
  | illegal {w : CommandWord} {ws : List CommandWord} {e : Reject} (ha : Accepting s) (hc : s.env.cmds = w :: ws)
      (hd : decodeCommand w = .error e) : Stepped s (raise .illegalCommand 0 (dropCommand ws s))

/-- The word on the port of an accepting block is taken off it and given to `exec`. -/
theorem step_of_command {w : CommandWord} {ws : List CommandWord} (ha : Accepting s) (hc : s.env.cmds = w :: ws)
    (hd : decodeCommand w = .ok i) : step s = exec i (dropCommand ws s) := by
  obtain ⟨hp, hr, hz⟩ := ha
  simp [step, hz, hp, hr, hc, hd]

/-- In an Idle block the response held goes before the command port. -/
theorem step_of_held {r : Response} (hz : s.env.resetLine = false) (hp : s.phase = .idle) (hr : s.resp = some r) :
    step s = .next (if s.env.hostReady then takeResponse r s else s) := by
  cases hh : s.env.hostReady <;> simp [step, hz, hp, hr, hh]

theorem Stepped.step_eq {t : State} (h : Stepped s t) : step s = .next t := by
  cases h with
  | reset hz => exact step_of_reset hz
  | busy hz hp => exact step_of_busy hz hp
  | taken hz hp hr hh => simp [step_of_held hz hp hr, hh]
  | held hz hp hr hh => simp [step_of_held hz hp hr, hh]
  | noCommand ha hc => obtain ⟨hp, hr, hz⟩ := ha; simp [step, hz, hp, hr, hc]
  | accepted ha hc hd => exact (step_of_command ha hc hd).trans (exec_of_idle ha.1 ha.2.1)
  | illegal ha hc hd => obtain ⟨hp, hr, hz⟩ := ha; simp [step, hz, hp, hr, hc, hd]

/-- One of the rules fits every state. -/
theorem exists_stepped (s : State) : ∃ t, Stepped s t := by
  cases hz : s.env.resetLine with
  | true => exact ⟨_, .reset hz⟩
  | false =>
    cases hp : s.phase with
    | busy i k l => exact ⟨_, .busy hz hp⟩
    | idle =>
      cases hr : s.resp with
      | some r =>
        cases hh : s.env.hostReady with
        | true => exact ⟨_, .taken hz hp hr hh⟩
        | false => exact ⟨_, .held hz hp hr hh⟩
      | none =>
        have ha : Accepting s := ⟨hp, hr, hz⟩
        cases hc : s.env.cmds with
        | nil => exact ⟨_, .noCommand ha hc⟩
        | cons w ws =>
          cases hd : decodeCommand w with
          | ok i => exact ⟨_, .accepted ha hc hd⟩
          | error e => exact ⟨_, .illegal ha hc hd⟩

theorem step_eq_next_iff {t : State} : step s = .next t ↔ Stepped s t := by
  refine ⟨fun h => ?_, Stepped.step_eq⟩
  obtain ⟨t', ht'⟩ := exists_stepped s
  cases ht'.step_eq.symm.trans h
  exact ht'

end

/-! ### The step's shape: O8, O11, O12, O13, O15, O16 -/

/-- Settles O8, by what the step does with a command word and with a command in progress. -/
theorem stepRunsTheDecodedInstruction : Obligations.StepRunsTheDecodedInstruction :=
  ⟨fun _ _ _ _ => step_of_command, fun _ _ _ _ hz hp => (step_of_busy hz hp).trans (exec_of_busy hp).symm⟩

/-- Settles O13. -/
theorem heldResponseIsTaken : Obligations.HeldResponseIsTaken := fun _ _ => step_of_held

/-- Settles O15, through the one acceptance check that all meanings share. -/
theorem outOfTurnCommandsAreRefused : Obligations.OutOfTurnCommandsAreRefused := fun i s =>
  ⟨fun _ _ _ hp hj => (exec_eq_runCommand i s).trans (runCommand_of_otherBusy hp hj),
    fun _ hp hr => (exec_eq_runCommand i s).trans (runCommand_of_held hp hr)⟩

/-- Settles O16. -/
theorem resetLeavesTheStatedState : Obligations.ResetLeavesTheStatedState :=
  ⟨⟨rfl, rfl, rfl, rfl⟩, fun _ => step_of_reset⟩

/-- Settles O11, by the effect of the step. -/
theorem busyStepIsOneEventOrTheEnd : Obligations.BusyStepIsOneEventOrTheEnd := by
  intro s i k l hz hp
  refine ⟨_, step_of_busy hz hp, ?_⟩
  rw [advance_eq_effect]
  cases he : effectOf l (planOf i s.poll l) (driveAnswer s) (exchangeAnswer s) with
  | wait => exact .inl ⟨by rw [nextPoll_of_effectOf_eq_wait he]; rfl, never_of_effectOf_eq_wait he⟩
  | drive d r l' => exact .inr (.inl ⟨_, l', rfl, rfl, rfl⟩)
  | exchange out b l' => exact .inr (.inl ⟨_, l', rfl, rfl, rfl⟩)
  | finish r => exact .inr (.inr ⟨r, rfl⟩)

/-- Settles O12: of the rules of the step only those of an accepting block write the command port. -/
theorem commandAcceptedOnlyWhenIdle : Obligations.CommandAcceptedOnlyWhenIdle := by
  intro s t h hne
  cases step_eq_next_iff.1 h with
  | reset hz => exact absurd rfl hne
  | busy hz hp => exact absurd advance_cmds hne
  | taken hz hp hr hh => exact absurd rfl hne
  | held hz hp hr hh => exact absurd rfl hne
  | noCommand ha hc => exact absurd rfl hne
  | accepted ha hc hd => exact ⟨ha, _, by rw [advance_cmds]; exact hc⟩
  | illegal ha hc hd => exact ⟨ha, _, hc⟩

/-! ### The first access of a command: O21 -/

theorem selectorCommand_fresh {reg sel addr : Byte} {m : AccessMode}
    (h : (if sel = 0 then some (reg, AccessMode.write 0x00) else none) = some (addr, m)) (poll : Nat) :
    selectorCommand reg sel poll Locals.fresh = .transact poll Locals.fresh addr m := by
  by_cases hs : sel = 0
  · rw [if_pos hs] at h
    cases h
    simp [selectorCommand, oneTransaction, Locals.fresh, hs]
  · rw [if_neg hs] at h
    cases h

/-- The pseudocode of a command with a first access starts it from fresh locals, its word computed. -/
theorem planOf_fresh {i : Instr} {addr : Byte} {m : AccessMode} (h : firstAccess i = some (addr, m)) (poll : Nat) :
    planOf i poll Locals.fresh = .transact poll { Locals.fresh with word := firstWord i } addr m := by
  cases i with
  | setFreq val => cases h; simp [planOf, setFreqPlan, Locals.fresh, wordByte, firstWord, regAddr]
  | setTxrate val =>
    cases h
    simp [planOf, setTxratePlan, Locals.fresh, wordByte, firstWord, regAddr, BitVec.extractLsb'_setWidth_of_le]
  | setMod sel => exact selectorCommand_fresh h poll
  | setFraming sel => exact selectorCommand_fresh h poll
  | setEncoding sel => exact selectorCommand_fresh h poll
  | _ => cases h; rfl

/-- Settles O21: acceptance, the first access, the one drive Low. -/
theorem acceptedCommandDrivesLow : Obligations.AcceptedCommandDrivesLow := by
  intro i s addr m r ds ha hf hd
  have hr : driveAnswer (accept i s) = .returns r := driveAnswer_of_scripted hd
  rw [exec_of_idle ha.1 ha.2.1, advance_between rfl, planOf_fresh hf, act]
  cases r with
  | ok => rw [beginTransact_ok hr]; simp [setBusy, setPoll, doDrive, accept, csAfter, hd]
  | err => rw [beginTransact_err hr]; simp [setBusy, setPoll, doDrive, accept, csAfter, hd]

/-! ### No step reads `cs`: O55 -/

/-- The chip-select level is overwritten. -/
def setCs (c : CsLevel) (s : State) : State := { s with cs := c }

theorem Effect.apply_setCs (e : Effect) (i : Instr) (k : Nat) (c : CsLevel) (s : State) :
    ∃ c', e.apply i k (setCs c s) = setCs c' (e.apply i k s) := by
  cases e with
  | wait => exact ⟨c, rfl⟩
  | drive d r l => exact ⟨csAfter d r, rfl⟩
  | exchange out b l => exact ⟨c, rfl⟩
  | finish r => exact ⟨c, rfl⟩

theorem advance_setCs (i : Instr) (plan : Nat → Locals → Action) (k : Nat) (l : Locals) (c : CsLevel) (s : State) :
    ∃ c', advance i plan k l (setCs c s) = setCs c' (advance i plan k l s) := by
  obtain ⟨c', h⟩ :=
    (effectOf l (plan s.poll l) (driveAnswer s) (exchangeAnswer s)).apply_setCs i k c s
  exact ⟨c', by rw [advance_eq_effect, advance_eq_effect]; exact congrArg (setPoll _) h⟩

/-- Settles O55: the same rule of the step applies whatever `cs` holds. -/
theorem csIsNeverRead : Obligations.CsIsNeverRead := by
  intro s t c h
  suffices ∃ c', Stepped (setCs c s) (setCs c' t) from this.imp fun _ => Stepped.step_eq
  cases step_eq_next_iff.1 h with
  | reset hz => exact ⟨.high, .reset (s := setCs c s) hz⟩
  | @busy i k l hz hp =>
    obtain ⟨c', h'⟩ := advance_setCs i (planOf i) k l c s
    exact ⟨c', h' ▸ .busy (s := setCs c s) hz hp⟩
  | taken hz hp hr hh => exact ⟨c, .taken (s := setCs c s) hz hp hr hh⟩
  | held hz hp hr hh => exact ⟨c, .held (s := setCs c s) hz hp hr hh⟩
  | noCommand ha hc => exact ⟨c, .noCommand (s := setCs c s) ha hc⟩
  | @accepted w ws i ha hc hd =>
    obtain ⟨c', h'⟩ := advance_setCs i (planOf i) 0 Locals.fresh c (accept i (dropCommand ws s))
    exact ⟨c', h' ▸ .accepted (s := setCs c s) ha hc hd⟩
  | illegal ha hc hd => exact ⟨c, .illegal (s := setCs c s) ha hc hd⟩

/-! ### Only AUTORANGE after a poll reads the poll index: O56 -/

/-- The same action with another poll index. -/
def Action.withPoll (p : Nat) : Action → Action
  | .transact _ l addr mode => .transact p l addr mode
  | .respond _ r => .respond p r
  | .raise _ c v => .raise p c v

@[simp] theorem startEffect_withPoll (p : Nat) (a : Action) (d : DriveAnswer) :
    startEffect (a.withPoll p) d = startEffect a d := by
  rcases a with _ | _ | _ <;> rcases d with ⟨_ | _⟩ | _ <;> rfl

@[simp] theorem effectOf_withPoll (l : Locals) (p : Nat) (a : Action) (d : DriveAnswer) (x : ExchangeAnswer) :
    effectOf l (a.withPoll p) d x = effectOf l a d x := by
  unfold effectOf
  rw [startEffect_withPoll]

theorem Effect.apply_setPoll (e : Effect) (i : Instr) (k p : Nat) (s : State) :
    e.apply i k (setPoll p s) = setPoll p (e.apply i k s) := by
  cases e <;> rfl

@[simp] theorem setPoll_setPoll (p q : Nat) (s : State) : setPoll p (setPoll q s) = setPoll p s := rfl

theorem oneTransaction_poll (addr : Byte) (m : AccessMode) (res : Byte → Byte → Response) (l : Locals) (p q : Nat) :
    oneTransaction addr m res p l = (oneTransaction addr m res q l).withPoll p := by
  unfold oneTransaction; split <;> rfl

theorem selectorCommand_poll (addr sel : Byte) (l : Locals) (p q : Nat) :
    selectorCommand addr sel p l = (selectorCommand addr sel q l).withPoll p := by
  unfold selectorCommand; split
  · rfl
  · exact oneTransaction_poll ..

/-- The pseudocode chooses its action by the poll index only after a poll of AUTORANGE. -/
theorem planOf_poll {i : Instr} {l : Locals} (h : ¬ (i = .autorange ∧ 2 ≤ l.txns)) (p q : Nat) :
    ∃ p', planOf i p l = (planOf i q l).withPoll p' := by
  cases i with
  | setFreq val =>
    refine ⟨p, ?_⟩
    simp only [planOf, setFreqPlan]
    split <;> rfl
  | getFreq =>
    refine ⟨p, ?_⟩
    simp only [planOf, getFreqPlan]
    split <;> rfl
  | setTxrate val =>
    refine ⟨p, ?_⟩
    simp only [planOf, setTxratePlan]
    split <;> rfl
  | getMod =>
    refine ⟨p, ?_⟩
    simp only [planOf, getModPlan]
    split
    · rfl
    · split <;> rfl
  | autorange =>
    obtain ht | ht : l.txns = 0 ∨ l.txns = 1 := by simp at h; omega
    · exact ⟨p, by simp [planOf, autorangePlan, ht, Action.withPoll]⟩
    · exact ⟨0, by simp [planOf, autorangePlan, ht, Action.withPoll]⟩
  | setMod sel => exact ⟨p, selectorCommand_poll ..⟩
  | setFraming sel => exact ⟨p, selectorCommand_poll ..⟩
  | setEncoding sel => exact ⟨p, selectorCommand_poll ..⟩
  | _ => exact ⟨p, by simp only [planOf, setPwrmode]; exact oneTransaction_poll ..⟩

theorem advance_setPoll {i : Instr} {l : Locals} (h : ¬ (i = .autorange ∧ l.point = .between ∧ 2 ≤ l.txns)) (k p : Nat)
    (s : State) : ∃ p', advance i (planOf i) k l (setPoll p s) = setPoll p' (advance i (planOf i) k l s) := by
  have heffect : effectOf l (planOf i p l) (driveAnswer s) (exchangeAnswer s) =
      effectOf l (planOf i s.poll l) (driveAnswer s) (exchangeAnswer s) := by
    by_cases hl : l.point = .between
    · obtain ⟨p', hp'⟩ := planOf_poll (i := i) (l := l) (fun ⟨hi, ht⟩ => h ⟨hi, hl, ht⟩) p s.poll
      rw [hp', effectOf_withPoll]
    · cases hq : l.point <;> simp_all [effectOf]
  refine ⟨nextPoll l (planOf i p l) (driveAnswer s) p, ?_⟩
  calc advance i (planOf i) k l (setPoll p s)
      = setPoll _ ((effectOf l (planOf i p l) (driveAnswer s) (exchangeAnswer s)).apply i k (setPoll p s)) :=
        advance_eq_effect
    _ = setPoll _ (setPoll p ((effectOf l (planOf i p l) (driveAnswer s) (exchangeAnswer s)).apply i k s)) := by
        rw [Effect.apply_setPoll]
    _ = setPoll _ (advance i (planOf i) k l s) := by rw [advance_eq_effect, heffect]; rfl

/-- Settles O56: the same rule of the step applies whatever `poll` holds. -/
theorem pollIsReadOnlyByAutorange : Obligations.PollIsReadOnlyByAutorange := by
  intro s t p hread h
  suffices ∃ p', Stepped (setPoll p s) (setPoll p' t) from this.imp fun _ => Stepped.step_eq
  cases step_eq_next_iff.1 h with
  | reset hz => exact ⟨0, .reset (s := setPoll p s) hz⟩
  | @busy i k l hz hp =>
    obtain ⟨p', h'⟩ := advance_setPoll (i := i) (l := l) (by simpa [readsPoll, hp] using hread) k p s
    exact ⟨p', h' ▸ .busy (s := setPoll p s) hz hp⟩
  | taken hz hp hr hh => exact ⟨p, .taken (s := setPoll p s) hz hp hr hh⟩
  | held hz hp hr hh => exact ⟨p, .held (s := setPoll p s) hz hp hr hh⟩
  | noCommand ha hc => exact ⟨p, .noCommand (s := setPoll p s) ha hc⟩
  | @accepted w ws i ha hc hd =>
    obtain ⟨p', h'⟩ := advance_setPoll (i := i) (l := Locals.fresh) (by simp [Locals.fresh]) 0 p
      (accept i (dropCommand ws s))
    exact ⟨p', h' ▸ .accepted (s := setPoll p s) ha hc hd⟩
  | illegal ha hc hd => exact ⟨p, .illegal (s := setPoll p s) ha hc hd⟩

/-! ### The block's invariant -/

section
variable {i : Instr} {k : Nat} {l : Locals} {s : State}

theorem blockInv_idle (hp : s.phase = .idle) : BlockInv s ↔ s.poll ≤ Config.pollLimit ∧ s.cs ≠ .low := by
  simp only [BlockInv, hp]

theorem blockInv_busy (hp : s.phase = .busy i k l) : BlockInv s ↔
    s.poll ≤ Config.pollLimit ∧ s.resp = none ∧ PointInv (maxTxns i) k l s.cs ∧ ValuesInv i l s.poll := by
  simp only [BlockInv, hp]

/-- Every frame that EncodeFrame gives is one the block may emit (30_encoding.md R59). -/
theorem emitted_encodeFrame (addr : Byte) (m : AccessMode) : emitted (encodeFrame addr m) := by
  cases m with
  | read => exact .inr (frameLow_encode_read addr)
  | write v => exact .inl (by simp [decodeDir, encodeFrame])

/-- No value of a command is touched between the start of a transaction and its end. -/
theorem ValuesInv.inFlight {l' : Locals} {poll : Nat} (h : ValuesInv i l poll) (hl : l.point ≠ .between)
    (hl' : l'.point ≠ .between) (ht : l'.txns = l.txns) (hw : l'.word = l.word) (hb : l'.bytes = l.bytes) :
    ValuesInv i l' poll := by
  cases i with
  | setFreq val => simpa [ValuesInv, hl, hl', hw] using h
  | getFreq => simpa [ValuesInv, hl, hl', ht, hb] using h
  | setTxrate val => simpa [ValuesInv, hl, hl', hw] using h
  | autorange => simpa [ValuesInv, hl, hl', ht] using h
  | _ => trivial

/-- The values after a transaction that returned Ok. -/
theorem ValuesInv.completed {poll : Nat} (h : ValuesInv i l poll) (hl : l.point ≠ .between) :
    ValuesInv i { l with point := .between, txns := l.txns + 1 } poll := by
  cases i with
  | setFreq val => simpa [ValuesInv, hl] using h
  | getFreq => simpa [ValuesInv, hl] using h
  | setTxrate val => simpa [ValuesInv, hl] using h
  | autorange => simpa [ValuesInv, hl] using h
  | _ => trivial

/-- What the invariant asks of the action that a command's pseudocode takes between transactions: a poll index in range,
and a transaction that the command may still start, with its values computed. -/
def ActionInv (i : Instr) (l : Locals) : Action → Prop
  | .transact poll l' _ _ => poll ≤ Config.pollLimit ∧ l.txns < maxTxns i ∧ l'.txns = l.txns ∧
      ∀ pt f, pt ≠ .between → ValuesInv i { l' with point := pt, frame := f } poll
  | .respond poll _ => poll ≤ Config.pollLimit
  | .raise poll _ _ => poll ≤ Config.pollLimit

section
variable {poll : Nat} (hpoll : poll ≤ Config.pollLimit)
include hpoll

theorem oneTransaction_actionInv (addr : Byte) (m : AccessMode) (res : Byte → Byte → Response) (hn : maxTxns i = 1)
    (hv : ∀ l p, ValuesInv i l p) : ActionInv i l (oneTransaction addr m res poll l) := by
  unfold oneTransaction
  split
  next h0 => exact ⟨hpoll, by omega, rfl, fun _ _ _ => hv _ _⟩
  next => exact hpoll

theorem selectorCommand_actionInv (addr sel : Byte) (hn : maxTxns i = if sel = 0 then 1 else 0)
    (hv : ∀ l p, ValuesInv i l p) : ActionInv i l (selectorCommand addr sel poll l) := by
  by_cases hs : sel = 0
  · simpa [selectorCommand, hs] using
      oneTransaction_actionInv hpoll addr (.write 0x00) (fun _ _ => okResponse) (by simpa [hs] using hn) hv
  · unfold selectorCommand
    rw [if_pos hs]
    exact hpoll

theorem getModPlan_actionInv : ActionInv .getMod l (getModPlan poll l) := by
  unfold getModPlan
  split
  next h0 => exact ⟨hpoll, by rw [h0]; decide, rfl, fun _ _ _ => trivial⟩
  next => split <;> exact hpoll

theorem setFreqPlan_actionInv (val : BitVec 32) (hv : l.txns = 0 ∨ l.word = freqWord val) :
    ActionInv (.setFreq val) l (setFreqPlan val poll l) := by
  unfold setFreqPlan
  split
  next h => exact ⟨hpoll, by simp [h, maxTxns], rfl, fun _ _ _ => .inr rfl⟩
  next h => exact ⟨hpoll, by simp [h, maxTxns], rfl, fun _ _ _ => .inr (by simpa [h] using hv)⟩
  next h => exact ⟨hpoll, by simp [h, maxTxns], rfl, fun _ _ _ => .inr (by simpa [h] using hv)⟩
  next h => exact ⟨hpoll, by simp [h, maxTxns], rfl, fun _ _ _ => .inr (by simpa [h] using hv)⟩
  next => exact hpoll

theorem setTxratePlan_actionInv (val : BitVec 32) (hv : l.txns = 0 ∨ l.word = (rateWord val).setWidth 32) :
    ActionInv (.setTxrate val) l (setTxratePlan val poll l) := by
  unfold setTxratePlan
  split
  next h => exact ⟨hpoll, by simp [h, maxTxns], rfl, fun _ _ _ => .inr rfl⟩
  next h => exact ⟨hpoll, by simp [h, maxTxns], rfl, fun _ _ _ => .inr (by simpa [h] using hv)⟩
  next h => exact ⟨hpoll, by simp [h, maxTxns], rfl, fun _ _ _ => .inr (by simpa [h] using hv)⟩
  next => exact hpoll

theorem getFreqPlan_actionInv (hv : l.bytes.length = l.txns - 1) : ActionInv .getFreq l (getFreqPlan poll l) := by
  unfold getFreqPlan
  split
  next h => exact ⟨hpoll, by simp [h, maxTxns], rfl, fun _ _ hpt => by simp [ValuesInv, hpt, hv, h]⟩
  next h => exact ⟨hpoll, by simp [h, maxTxns], rfl, fun _ _ hpt => by simp [ValuesInv, keepByte, hpt, hv, h]⟩
  next h => exact ⟨hpoll, by simp [h, maxTxns], rfl, fun _ _ hpt => by simp [ValuesInv, keepByte, hpt, hv, h]⟩
  next h => exact ⟨hpoll, by simp [h, maxTxns], rfl, fun _ _ hpt => by simp [ValuesInv, keepByte, hpt, hv, h]⟩
  next => exact hpoll

/-- After a completed poll AUTORANGE polls again only below the limit (43_autoranging.md R143, R145). -/
theorem afterPoll_actionInv (hv : l.txns = poll + 2 ∧ poll < Config.pollLimit) :
    ActionInv .autorange l (afterPoll poll l) := by
  obtain ⟨ht, hlt⟩ := hv
  unfold afterPoll
  split
  · split
    next hmore =>
      have hn : l.txns < Config.pollLimit + 1 := by omega
      exact ⟨hmore.le, hn, rfl, fun _ _ hpt => by simp [ValuesInv, hpt, ht, hmore]⟩
    next => exact hlt
  · split <;> exact hpoll

theorem autorangePlan_actionInv (hv : 2 ≤ l.txns → l.txns = poll + 2 ∧ poll < Config.pollLimit) :
    ActionInv .autorange l (autorangePlan poll l) := by
  unfold autorangePlan
  split
  next h => exact ⟨hpoll, by rw [h]; decide, rfl, fun _ _ hpt => by simp [ValuesInv, hpt, h]⟩
  next h => exact ⟨by decide, by rw [h]; decide, rfl, fun _ _ hpt => by simp [ValuesInv, hpt, h, Config.pollLimit]⟩
  next h0 h1 =>
    have hge : 2 ≤ l.txns := (Nat.two_le_iff _).2 ⟨h0, h1⟩
    exact afterPoll_actionInv hpoll (hv hge)

theorem planOf_actionInv (hl : l.point = .between) (hv : ValuesInv i l poll) : ActionInv i l (planOf i poll l) := by
  cases i with
  | setFreq val => exact setFreqPlan_actionInv hpoll val (by simpa [ValuesInv, hl] using hv)
  | getFreq => exact getFreqPlan_actionInv hpoll (by simpa [ValuesInv, hl] using hv)
  | setTxrate val => exact setTxratePlan_actionInv hpoll val (by simpa [ValuesInv, hl] using hv)
  | getMod => exact getModPlan_actionInv hpoll
  | autorange => exact autorangePlan_actionInv hpoll (by simpa [ValuesInv, hl] using hv)
  | setMod sel => exact selectorCommand_actionInv hpoll _ _ rfl fun _ _ => trivial
  | setFraming sel => exact selectorCommand_actionInv hpoll _ _ rfl fun _ _ => trivial
  | setEncoding sel => exact selectorCommand_actionInv hpoll _ _ rfl fun _ _ => trivial
  | _ =>
    simp only [planOf, setPwrmode]
    exact oneTransaction_actionInv hpoll _ _ _ rfl fun _ _ => trivial

end

/-- What the invariant asks of the effect of a step that leaves this poll index. -/
def EffectInv (i : Instr) (k poll : Nat) (s : State) : Effect → Prop
  | .wait => poll = s.poll
  | .drive d r l => PointInv (maxTxns i) (k + 1) l (csAfter d r) ∧ ValuesInv i l poll
  | .exchange _ _ l => PointInv (maxTxns i) (k + 1) l s.cs ∧ ValuesInv i l poll
  | .finish _ => s.cs ≠ .low

theorem Effect.apply_keeps_blockInv {e : Effect} {poll : Nat} (hs : BlockInv s) (hp : s.phase = .busy i k l)
    (hpoll : poll ≤ Config.pollLimit) (he : EffectInv i k poll s e) : BlockInv (setPoll poll (e.apply i k s)) := by
  obtain ⟨-, hresp, -, -⟩ := (blockInv_busy hp).1 hs
  cases e with
  | wait => cases he; exact hs
  | drive d r l' => exact (blockInv_busy rfl).2 ⟨hpoll, hresp, he⟩
  | exchange out b l' => exact (blockInv_busy rfl).2 ⟨hpoll, hresp, he⟩
  | finish r => exact (blockInv_idle rfl).2 ⟨hpoll, he⟩

/-! #### What the invariant says at each point of a command (10_state.md R15, 40_framer.md R104 to R106) -/

section
variable {n : Nat} {cs : CsLevel}

theorem pointInv_between (hl : l.point = .between) :
    PointInv n k l cs ↔ k = 4 * l.txns ∧ l.txns ≤ n ∧ cs ≠ .low ∧ (0 < l.txns → cs = .high) := by
  simp only [PointInv, hl]

theorem pointInv_sendHigh (hl : l.point = .sendHigh) :
    PointInv n k l cs ↔ k = 4 * l.txns + 1 ∧ l.txns < n ∧ cs = .low ∧ emitted l.frame := by
  simp only [PointInv, hl]

theorem pointInv_sendLow (hl : l.point = .sendLow) :
    PointInv n k l cs ↔ k = 4 * l.txns + 2 ∧ l.txns < n ∧ cs = .low ∧ emitted l.frame := by
  simp only [PointInv, hl]

theorem pointInv_release (hl : l.point = .release) :
    PointInv n k l cs ↔ k = 4 * l.txns + 3 ∧ l.txns < n ∧ cs = .low ∧ emitted l.frame := by
  simp only [PointInv, hl]

theorem pointInv_restore (hl : l.point = .restore) :
    PointInv n k l cs ↔ 4 * l.txns + 1 ≤ k ∧ k ≤ 4 * l.txns + 3 ∧ l.txns < n ∧ cs ≠ .high := by
  simp only [PointInv, hl]

theorem pointInv_failed (hl : l.point = .failed) :
    PointInv n k l cs ↔ 4 * l.txns + 2 ≤ k ∧ k ≤ 4 * l.txns + 4 ∧ l.txns < n ∧ cs ≠ .low := by
  simp only [PointInv, hl]

/-- The line is not High where the restore drive is due: an exchange failed with it Low. -/
theorem restore_of_exchangeErr {k' : Nat} (hk : 4 * l.txns + 1 ≤ k') (hk' : k' ≤ 4 * l.txns + 3) (hn : l.txns < n)
    (hcs : cs = .low) : PointInv n k' { l with point := .restore } cs :=
  (pointInv_restore rfl).2 ⟨hk, hk', hn, by simp [hcs]⟩

/-- No drive High leaves the line Low. -/
theorem csAfter_high_ne_low (r : DriveResult) : csAfter .high r ≠ .low := by cases r <;> simp [csAfter]

end

/-- Between transactions: the action respects the invariant, so its effect does. -/
theorem startEffect_inv {a : Action} (hl : l.point = .between) (ha : ActionInv i l a)
    (hpt : PointInv (maxTxns i) k l s.cs) (hpoll : s.poll ≤ Config.pollLimit) (d : DriveAnswer) :
    nextPoll l a d s.poll ≤ Config.pollLimit ∧ EffectInv i k (nextPoll l a d s.poll) s (startEffect a d) := by
  obtain ⟨hk, -, hcs, -⟩ := (pointInv_between hl).1 hpt
  cases a with
  | transact p l' addr m =>
    obtain ⟨hp, hn, ht, hv⟩ := ha
    rcases d with ⟨_ | _⟩ | _
    · simp only [nextPoll, hl, startEffect]
      exact ⟨hp, (pointInv_sendHigh rfl).2 ⟨by simp [hk, ht], by simpa [ht] using hn, rfl, emitted_encodeFrame addr m⟩,
        hv _ _ nofun⟩
    · simp only [nextPoll, hl, startEffect]
      exact ⟨hp, (pointInv_restore rfl).2 ⟨by simp [hk, ht], by simp [hk, ht], by simpa [ht] using hn, nofun⟩,
        hv _ _ nofun⟩
    · simp only [nextPoll, hl, startEffect]
      exact ⟨hpoll, rfl⟩
  | respond p r => simpa only [nextPoll, hl, startEffect] using ⟨ha, hcs⟩
  | raise p c v => simpa only [nextPoll, hl, startEffect] using ⟨ha, hcs⟩

/-- Inside a transaction the poll index stays and the effect respects the invariant, whatever the action. -/
theorem inFlightEffect_inv (hl : l.point ≠ .between) (hpt : PointInv (maxTxns i) k l s.cs) (hv : ValuesInv i l s.poll)
    (a : Action) (d : DriveAnswer) (x : ExchangeAnswer) : EffectInv i k s.poll s (effectOf l a d x) := by
  cases hq : l.point with
  | between => exact absurd hq hl
  | sendHigh =>
    obtain ⟨hk, hn, hcs, he⟩ := (pointInv_sendHigh hq).1 hpt
    rcases x with b | _ | _
    · simp only [effectOf, hq]
      exact ⟨(pointInv_sendLow rfl).2 ⟨by simp [hk], hn, hcs, he⟩, hv.inFlight hl nofun rfl rfl rfl⟩
    · simp only [effectOf, hq]
      exact ⟨restore_of_exchangeErr (by omega) (by omega) hn hcs, hv.inFlight hl nofun rfl rfl rfl⟩
    · simp only [effectOf, hq]; rfl
  | sendLow =>
    obtain ⟨hk, hn, hcs, he⟩ := (pointInv_sendLow hq).1 hpt
    rcases x with b | _ | _
    · simp only [effectOf, hq]
      exact ⟨(pointInv_release rfl).2 ⟨by simp [hk], hn, hcs, he⟩, hv.inFlight hl nofun rfl rfl rfl⟩
    · simp only [effectOf, hq]
      exact ⟨restore_of_exchangeErr (by omega) (by omega) hn hcs, hv.inFlight hl nofun rfl rfl rfl⟩
    · simp only [effectOf, hq]; rfl
  | release =>
    obtain ⟨hk, hn, -, -⟩ := (pointInv_release hq).1 hpt
    rcases d with ⟨_ | _⟩ | _
    · simp only [effectOf, hq]
      exact ⟨(pointInv_between rfl).2 ⟨by simp [hk]; omega, hn, nofun, fun _ => rfl⟩, hv.completed hl⟩
    · simp only [effectOf, hq]
      exact ⟨(pointInv_failed rfl).2 ⟨by simp [hk], by simp [hk], hn, nofun⟩, hv.inFlight hl nofun rfl rfl rfl⟩
    · simp only [effectOf, hq]; rfl
  | restore =>
    obtain ⟨hk, hk', hn, -⟩ := (pointInv_restore hq).1 hpt
    cases d with
    | returns r =>
      simp only [effectOf, hq]
      exact ⟨(pointInv_failed rfl).2 ⟨by simpa using hk, by simpa using hk', hn, csAfter_high_ne_low r⟩,
        hv.inFlight hl nofun rfl rfl rfl⟩
    | never => simp only [effectOf, hq]; rfl
  | failed =>
    obtain ⟨-, -, -, hcs⟩ := (pointInv_failed hq).1 hpt
    simp only [effectOf, hq]
    exact hcs

theorem advance_keeps_blockInv (hs : BlockInv s) (hp : s.phase = .busy i k l) : BlockInv (advance i (planOf i) k l s) := by
  obtain ⟨hpoll, -, hpt, hv⟩ := (blockInv_busy hp).1 hs
  rw [advance_eq_effect]
  by_cases hl : l.point = .between
  · obtain ⟨hpoll', he⟩ := startEffect_inv hl (planOf_actionInv hpoll hl hv) hpt hpoll (driveAnswer s)
    refine Effect.apply_keeps_blockInv hs hp hpoll' ?_
    simpa only [effectOf, hl] using he
  · rw [nextPoll_inFlight hl]
    exact Effect.apply_keeps_blockInv hs hp hpoll (inFlightEffect_inv hl hpt hv _ _ _)

/-- A command that is accepted starts with the invariant. -/
theorem accept_blockInv (hs : BlockInv s) (hp : s.phase = .idle) (hr : s.resp = none) (i : Instr) :
    BlockInv (accept i s) := by
  obtain ⟨hpoll, hcs⟩ := (blockInv_idle hp).1 hs
  have hpt : PointInv (maxTxns i) 0 Locals.fresh s.cs :=
    (pointInv_between rfl).2 ⟨rfl, Nat.zero_le _, hcs, fun h => absurd h (Nat.lt_irrefl 0)⟩
  refine (blockInv_busy rfl).2 ⟨hpoll, hr, hpt, ?_⟩
  cases i with
  | setFreq val => exact .inl ⟨rfl, rfl⟩
  | setTxrate val => exact .inl ⟨rfl, rfl⟩
  | getFreq => rfl
  | autorange => exact nofun
  | _ => trivial

end

/-- Settles O49. -/
theorem resetHasBlockInv : Obligations.ResetHasBlockInv := (blockInv_idle rfl).2 ⟨Nat.zero_le _, nofun⟩

/-- Settles O50, rule by rule of the step. -/
theorem stepKeepsBlockInv : Obligations.StepKeepsBlockInv := by
  intro s t hs h
  cases step_eq_next_iff.1 h with
  | reset hz => exact (blockInv_idle rfl).2 ⟨Nat.zero_le _, nofun⟩
  | busy hz hp => exact advance_keeps_blockInv hs hp
  | @taken r hz hp hr hh => exact (blockInv_idle (s := takeResponse r s) hp).2 ((blockInv_idle hp).1 hs)
  | held hz hp hr hh => exact hs
  | noCommand ha hc => exact hs
  | @accepted w ws i ha hc hd =>
    obtain ⟨hp, hr, -⟩ := ha
    have hdrop : BlockInv (dropCommand ws s) := (blockInv_idle (s := dropCommand ws s) hp).2 ((blockInv_idle hp).1 hs)
    exact advance_keeps_blockInv (accept_blockInv hdrop hp hr i) rfl
  | illegal ha hc hd => exact (blockInv_idle rfl).2 ((blockInv_idle ha.1).1 hs)

end Sys2Proof.Machine
end

section
/-! SUPPORT. Proofs about the register space (20_memory.md): the source gives fifteen addresses, and the other three are
drawn one after the other from the 7-bit addresses still free. -/

namespace Sys2Proof.Machine

open Sys2Proof

/-! ### The addresses the source gives -/

theorem mem_allRegs (r : ChipReg) : r ∈ allRegs := by cases r <;> decide

theorem fixedAddr_injective {r r' : ChipReg} {a : Byte} (h : fixedAddr r = some a) (h' : fixedAddr r' = some a) :
    r = r' := by
  have table : ∀ x ∈ allRegs, ∀ y ∈ allRegs, (fixedAddr x).isSome → fixedAddr x = fixedAddr y → x = y := by decide
  exact table r (mem_allRegs r) r' (mem_allRegs r') (by rw [h]; rfl) (h.trans h'.symm)

theorem mem_fixedAddrs {r : ChipReg} {a : Byte} (h : fixedAddr r = some a) : a ∈ allRegs.filterMap fixedAddr :=
  List.mem_filterMap.2 ⟨r, mem_allRegs r, h⟩

theorem isRegAddr_of_fixed {r : ChipReg} {a : Byte} (h : fixedAddr r = some a) : isRegAddr a = true := by
  have table : ∀ b ∈ allRegs.filterMap fixedAddr, isRegAddr b = true := by decide
  exact table a (mem_fixedAddrs h)

theorem fixed_not_mem_openAddrs {r : ChipReg} {a : Byte} (h : fixedAddr r = some a) : a ∉ openAddrs := by
  intro ha
  have hfree := (List.mem_filter.1 ha).2
  simp [mem_fixedAddrs h] at hfree

/-! ### The three open addresses -/

theorem addrFraming_ne_addrPincfg2 : addrFraming ≠ addrPincfg2 :=
  (openAddrs_nodup.mem_erase_iff.1 addrFraming_mem).1

theorem addrEncoding_ne_addrFraming : addrEncoding ≠ addrFraming :=
  ((openAddrs_nodup.erase addrPincfg2).mem_erase_iff.1 addrEncoding_mem).1

theorem addrEncoding_ne_addrPincfg2 : addrEncoding ≠ addrPincfg2 :=
  (openAddrs_nodup.mem_erase_iff.1 (List.mem_of_mem_erase addrEncoding_mem)).1

theorem fixedAddr_eq_none_iff {r : ChipReg} :
    fixedAddr r = none ↔ r = .pincfg2 ∨ r = .framing ∨ r = .encoding := by cases r <;> decide

theorem regAddr_mem_openAddrs {r : ChipReg} (h : fixedAddr r = none) : regAddr r ∈ openAddrs := by
  obtain rfl | rfl | rfl := fixedAddr_eq_none_iff.1 h
  · exact addrPincfg2_mem
  · exact List.mem_of_mem_erase addrFraming_mem
  · exact List.mem_of_mem_erase (List.mem_of_mem_erase addrEncoding_mem)

theorem openRegs_addrs_nodup : ([ChipReg.pincfg2, .framing, .encoding].map regAddr).Nodup := by
  simp [regAddr, addrFraming_ne_addrPincfg2.symm, addrEncoding_ne_addrPincfg2.symm, addrEncoding_ne_addrFraming.symm]

theorem regAddr_injective_of_open {r r' : ChipReg} (h : fixedAddr r = none) (h' : fixedAddr r' = none)
    (he : regAddr r = regAddr r') : r = r' :=
  List.inj_on_of_nodup_map openRegs_addrs_nodup (by simpa using fixedAddr_eq_none_iff.1 h)
    (by simpa using fixedAddr_eq_none_iff.1 h') he

/-! ### All registers -/

theorem isRegAddr_regAddr (r : ChipReg) : isRegAddr (regAddr r) = true := by
  cases h : fixedAddr r with
  | some a => rw [regAddr_of_fixed h]; exact isRegAddr_of_fixed h
  | none => exact isRegAddr_of_mem_openAddrs _ (regAddr_mem_openAddrs h)

/-- A register has an open address exactly where the source gives none. -/
theorem regAddr_mem_openAddrs_iff {r : ChipReg} : regAddr r ∈ openAddrs ↔ fixedAddr r = none := by
  refine ⟨fun hmem => ?_, regAddr_mem_openAddrs⟩
  cases h : fixedAddr r with
  | some a => exact absurd (regAddr_of_fixed h ▸ hmem) (fixed_not_mem_openAddrs h)
  | none => rfl

theorem regAddr_injective {r r' : ChipReg} (he : regAddr r = regAddr r') : r = r' := by
  have hsame : fixedAddr r = none ↔ fixedAddr r' = none := by
    rw [← regAddr_mem_openAddrs_iff, ← regAddr_mem_openAddrs_iff, he]
  cases h : fixedAddr r with
  | none => exact regAddr_injective_of_open h (hsame.1 h) he
  | some a =>
    obtain ⟨b, h'⟩ := Option.ne_none_iff_exists'.1 (mt hsame.2 (by simp [h]))
    rw [regAddr_of_fixed h, regAddr_of_fixed h'] at he
    exact fixedAddr_injective h (he ▸ h')

/-- Settles O33: each clause by whether the source gives the address. -/
theorem registerAddresses : Obligations.RegisterAddresses :=
  ⟨isRegAddr_regAddr, fun _ _ => regAddr_injective, rfl⟩

end Sys2Proof.Machine
end

section
/-! SUPPORT. Proofs about the encodings (30_encoding.md): the decoder and the encoder are inverse to each other, and the
words they share are those of the opcode table. -/

namespace Sys2Proof

open Sys2Proof.Machine

/-! ### Fields of words -/

@[simp] theorem opField_commandWord (op : Byte) (o : Operand) : opField (commandWord op o) = op :=
  BitVec.extractLsb'_append_eq_left

@[simp] theorem opndField_commandWord (op : Byte) (o : Operand) : opndField (commandWord op o) = o :=
  BitVec.extractLsb'_append_eq_right

/-- A command word is its two fields (R56). -/
theorem commandWord_fields (w : CommandWord) : commandWord (opField w) (opndField w) = w :=
  (BitVec.extractLsb'_append_extractLsb'_eq_extractLsb' rfl).trans BitVec.extractLsb'_eq_self

/-- An operand whose bits from `n` upward are 0 is its low field. -/
theorem setWidth_low_of_upper_eq_zero {n k : Nat} {o : Operand} (hnk : n + k = 32) (h : o.extractLsb' n k = 0) :
    (o.extractLsb' 0 n).setWidth 32 = o := by
  apply BitVec.eq_of_getLsbD_eq
  intro j hj
  by_cases hn : j < n
  · simp [hn, hj]
  · have hbit := congrArg (·.getLsbD (j - n)) h
    simpa [hn, show j - n < k by omega, show n + (j - n) = j by omega] using hbit.symm

/-- The bits above a zero-extended field are 0. -/
theorem upper_setWidth {n k : Nat} (v : BitVec n) : (v.setWidth 32 : Operand).extractLsb' n k = 0 := by
  ext j hj; simp

/-- The low field of a zero-extended field is the field. -/
theorem low_setWidth {n : Nat} (h : n ≤ 32) (v : BitVec n) : (v.setWidth 32 : Operand).extractLsb' 0 n = v := by
  rw [BitVec.extractLsb'_setWidth_of_le (by omega), BitVec.extractLsb'_eq_self]

/-- A mask that covers a field fixes the field. -/
theorem extract_of_masked {n start len : Nat} {w m b : BitVec n} (h : w &&& m = b)
    (hm : m.extractLsb' start len = BitVec.allOnes len) : w.extractLsb' start len = b.extractLsb' start len := by
  rw [← h, BitVec.extractLsb'_and, hm, BitVec.and_allOnes]

/-! ### Frames (40_framer.md R100 to R102) -/

@[simp] theorem decodeDir_encode_read (a : Byte) : decodeDir (encodeFrame a .read) = false := by
  simp [decodeDir, encodeFrame]

@[simp] theorem decodeDir_encode_write (a v : Byte) : decodeDir (encodeFrame a (.write v)) = true := by
  simp [decodeDir, encodeFrame]

@[simp] theorem decodeData_encode_read (a : Byte) : decodeData (encodeFrame a .read) = 0 := frameLow_encode_read a

@[simp] theorem decodeData_encode_write (a v : Byte) : decodeData (encodeFrame a (.write v)) = v :=
  frameLow_encode_write a v

@[simp] theorem decodeAddress_encode (a : Byte) (m : AccessMode) :
    decodeAddress (encodeFrame a m) = a.setWidth 7 := by
  ext i hi
  cases m with
  | read => simp only [decodeAddress, encodeFrame]; interval_cases i <;> simp
  | write v => simp only [decodeAddress, encodeFrame]; interval_cases i <;> simp

/-- A 7-bit address is a register address, and every register address is one (20_memory.md R30). -/
theorem isRegAddr_setWidth (a : BitVec 7) : isRegAddr (a.setWidth 8) = true := by
  simp [isRegAddr]; omega

theorem setWidth_setWidth_of_isRegAddr {a : Byte} (h : isRegAddr a = true) : (a.setWidth 7).setWidth 8 = a := by
  simp only [isRegAddr, decide_eq_true_eq] at h
  apply BitVec.eq_of_toNat_eq
  simp only [BitVec.toNat_setWidth]
  omega

/-- The frame that EncodeFrame gives for the fields of a write frame. -/
theorem encode_fields_of_write {f : Frame} (h : decodeDir f = true) :
    encodeFrame ((decodeAddress f).setWidth 8) (.write (decodeData f)) = f := by
  simp only [decodeDir] at h
  simp only [encodeFrame, decodeAddress, decodeData]
  ext i hi
  interval_cases i <;> simp [h, ← BitVec.getLsbD_eq_getElem]

/-- The frame that EncodeFrame gives for the address of a read frame. -/
theorem encode_fields_of_read {f : Frame} (h : decodeDir f = false) (h0 : decodeData f = 0) :
    encodeFrame ((decodeAddress f).setWidth 8) .read = f := by
  have low : ∀ j < 8, f.getLsbD j = false := fun j hj => by
    simpa [decodeData, hj] using congrArg (·.getLsbD j) h0
  simp only [decodeDir] at h
  simp only [encodeFrame, decodeAddress]
  ext i hi
  interval_cases i <;> simp [h, low, ← BitVec.getLsbD_eq_getElem]

/-- The access that a frame spells: none where DIR = 0 and DATA ≠ 0, which the block never emits (R59). -/
def accessOf (f : Frame) : Option (Byte × AccessMode) :=
  if decodeDir f then some ((decodeAddress f).setWidth 8, .write (decodeData f))
  else if decodeData f = 0 then some ((decodeAddress f).setWidth 8, .read)
  else none

theorem accessOf_encodeFrame {a : Byte} (h : isRegAddr a = true) (m : AccessMode) :
    accessOf (encodeFrame a m) = some (a, m) := by
  cases m <;> simp [accessOf, setWidth_setWidth_of_isRegAddr h]

theorem encodeFrame_of_accessOf {f : Frame} {a : Byte} {m : AccessMode} (h : accessOf f = some (a, m)) :
    encodeFrame a m = f ∧ isRegAddr a = true := by
  unfold accessOf at h
  split at h
  next hd => cases h; exact ⟨encode_fields_of_write hd, isRegAddr_setWidth _⟩
  next hd =>
    split at h
    next h0 => cases h; exact ⟨encode_fields_of_read (by simpa using hd) h0, isRegAddr_setWidth _⟩
    next => cases h

theorem decodeFrame_eq_ok_iff {f : Frame} {i : Instr} :
    decodeFrame f = .ok i ↔ ∃ a m, accessOf f = some (a, m) ∧ i = frameOf a m := by
  unfold decodeFrame accessOf
  split
  · simp [frameOf, eq_comm]
  · split <;> simp [frameOf, eq_comm]

/-! ### The operand forms (R58) -/

/-- The instruction is spelled by this opcode and operand. -/
def Spells (i : Instr) (op : Byte) (o : Operand) : Prop :=
  encode i = .command (commandWord op o) ∧ i.wellFormed = true

section
variable {i : Instr} {op : Byte} {o : Operand}

theorem Spells.encode_eq {w : CommandWord} (h : Spells i (opField w) (opndField w)) : encode i = .command w := by
  rw [h.1, commandWord_fields]

/-- Forms with a field of `n` low bits: the operand with all bits above it 0 spells the instruction of its field. -/
theorem spells_of_upper_eq_zero {n k : Nat} {mk : BitVec n → Instr} (hmk : ∀ v, Spells (mk v) op (v.setWidth 32))
    (hnk : n + k = 32) (h : o.extractLsb' n k = 0) : Spells (mk (o.extractLsb' 0 n)) op o := by
  simpa only [setWidth_low_of_upper_eq_zero hnk h] using hmk (o.extractLsb' 0 n)

theorem execOf_spells {a : Byte} {m : AccessMode} (h : isRegAddr a = true) :
    Spells (execOf a m) 0x01 ((encodeFrame a m).setWidth 32) := by
  cases m with
  | read => exact ⟨rfl, h⟩
  | write v => exact ⟨rfl, h⟩

theorem formN_spells {j : Instr} (hj : Spells j op 0) (h : formN j o = .ok i) : Spells i op o := by
  unfold formN at h
  split at h
  next h0 => cases h; exact h0 ▸ hj
  next => cases h

theorem formB_setWidth (mk : Byte → Instr) (v : Byte) : formB mk (v.setWidth 32) = .ok (mk v) := by
  rw [formB, if_pos (upper_setWidth v), low_setWidth (by decide)]

theorem formS_eq_formB (mk : Byte → Instr) : formS mk = formB mk := rfl

theorem formB_spells {mk : Byte → Instr} (hmk : ∀ v, Spells (mk v) op (v.setWidth 32)) (h : formB mk o = .ok i) :
    Spells i op o := by
  unfold formB at h
  split at h
  next h0 => cases h; exact spells_of_upper_eq_zero hmk rfl h0
  next => cases h

theorem formW_spells {mk : BitVec 32 → Instr} (hmk : ∀ v, Spells (mk v) op v) (h : formW mk o = .ok i) :
    Spells i op o := by
  cases h
  exact hmk o

theorem formL_setWidth (on : BitVec 1) : formL (on.setWidth 32) = .ok (.setSysclkLed on) := by
  rw [formL, if_pos (upper_setWidth on), low_setWidth (by decide)]

theorem formL_spells (h : formL o = .ok i) : Spells i 0x0E o := by
  unfold formL at h
  split at h
  next h0 => cases h; exact spells_of_upper_eq_zero (mk := .setSysclkLed) (fun _ => ⟨rfl, rfl⟩) rfl h0
  next => cases h

theorem formP_setWidth (flt cpi : BitVec 2) (bs fs : BitVec 1) :
    formP ((fs ++ bs ++ cpi ++ flt).setWidth 32) = .ok (.setPllloop flt cpi bs fs) := by
  rw [formP, if_pos (upper_setWidth _)]
  simp (disch := omega) only [BitVec.extractLsb'_setWidth_of_le, BitVec.extractLsb'_append_eq_of_le,
    BitVec.extractLsb'_append_eq_of_add_le, Nat.reduceSub, BitVec.extractLsb'_eq_self]

theorem formP_spells (h : formP o = .ok i) : Spells i 0x05 o := by
  unfold formP at h
  split at h
  next h0 =>
    cases h
    have hfields : o.extractLsb' 5 1 ++ o.extractLsb' 4 1 ++ o.extractLsb' 2 2 ++ o.extractLsb' 0 2 =
        o.extractLsb' 0 (1 + 1 + 2 + 2) := by
      simp only [BitVec.extractLsb'_append_extractLsb'_eq_extractLsb']
    refine ⟨?_, rfl⟩
    simp only [encode, hfields, setWidth_low_of_upper_eq_zero (n := 1 + 1 + 2 + 2) rfl h0]
  next => cases h

theorem spells_of_mode {c : BitVec 4} (hc : Spells i op (c.setWidth 32)) (h : o.extractLsb' 4 28 = 0)
    (hm : o.extractLsb' 0 4 = c) : Spells i op o := by
  rwa [← hm, setWidth_low_of_upper_eq_zero rfl h] at hc

theorem formM_spells (h : formM o = .ok i) : Spells i 0x04 o := by
  unfold formM at h
  split at h
  next => cases h
  next hr =>
    have hupper := not_not.1 hr
    dsimp only at h
    split_ifs at h with h0 h4 h5 hC hD
    · cases h; exact spells_of_mode ⟨rfl, rfl⟩ hupper h0
    · cases h; exact spells_of_mode ⟨rfl, rfl⟩ hupper h4
    · cases h; exact spells_of_mode ⟨rfl, rfl⟩ hupper h5
    · cases h; exact spells_of_mode ⟨rfl, rfl⟩ hupper hC
    · cases h; exact spells_of_mode ⟨rfl, rfl⟩ hupper hD

/-- Form X reads the lower half of the operand as the frame of its access. -/
theorem formX_setWidth_eq_ok_iff {f : Frame} :
    formX (f.setWidth 32) = .ok i ↔ ∃ a m, accessOf f = some (a, m) ∧ i = execOf a m := by
  have hdir : (f.setWidth 32).getLsbD 15 = decodeDir f := by simp [decodeDir]
  have haddr : (f.setWidth 32).extractLsb' 8 7 = decodeAddress f := BitVec.extractLsb'_setWidth_of_le (by decide)
  have hdata : (f.setWidth 32).extractLsb' 0 8 = decodeData f := BitVec.extractLsb'_setWidth_of_le (by decide)
  rw [formX, if_neg (not_not.2 (upper_setWidth f)), hdir, haddr, hdata, accessOf]
  by_cases hw : decodeDir f = true
  · simp [hw, execOf, eq_comm]
  · by_cases h0 : decodeData f = 0#8
    · simp [hw, h0, execOf, eq_comm]
    · simp [hw, h0]

theorem exists_formX_eq_ok (h : o.extractLsb' 16 16 = 0) (hd : o.getLsbD 15 = true ∨ o.extractLsb' 0 8 = 0) :
    ∃ j, formX o = .ok j := by
  rw [formX, if_neg (not_not.2 h)]
  by_cases hw : o.getLsbD 15 = true
  · exact ⟨_, if_pos hw⟩
  · exact ⟨_, (if_neg hw).trans (if_pos (hd.resolve_left hw))⟩

theorem formX_spells (h : formX o = .ok i) : Spells i 0x01 o := by
  by_cases h0 : o.extractLsb' 16 16 = 0
  · have ho := setWidth_low_of_upper_eq_zero rfl h0
    rw [← ho, formX_setWidth_eq_ok_iff] at h
    obtain ⟨a, m, hf, rfl⟩ := h
    obtain ⟨hframe, ha⟩ := encodeFrame_of_accessOf hf
    simpa only [hframe, ho] using execOf_spells (m := m) ha
  · rw [formX, if_pos h0] at h
    cases h

end

/-! ### The decoder and the encoder: O1, O2 -/

/-- Only the encoding of a well-formed instruction is accepted: its opcode's form has read every bit of the operand. -/
theorem spells_of_decodeCommand {w : CommandWord} {i : Instr} (h : decodeCommand w = .ok i) :
    Spells i (opField w) (opndField w) := by
  have hop : ∀ {n : Nat}, (opField w).toNat = n → Spells i (BitVec.ofNat 8 n) (opndField w) →
      Spells i (opField w) (opndField w) := by
    rintro _ rfl hs
    rwa [BitVec.ofNat_toNat, BitVec.setWidth_eq] at hs
  unfold decodeCommand at h
  split at h
  next heq => exact hop heq (formX_spells h)
  next heq => exact hop heq (formN_spells ⟨rfl, rfl⟩ h)
  next heq => exact hop heq (formB_spells (fun _ => ⟨rfl, rfl⟩) h)
  next heq => exact hop heq (formM_spells h)
  next heq => exact hop heq (formP_spells h)
  next heq => exact hop heq (formW_spells (fun _ => ⟨rfl, rfl⟩) h)
  next heq => exact hop heq (formN_spells ⟨rfl, rfl⟩ h)
  next heq => exact hop heq (formN_spells ⟨rfl, rfl⟩ h)
  next heq => exact hop heq (formW_spells (fun _ => ⟨rfl, rfl⟩) h)
  next heq => exact hop heq (formB_spells (fun _ => ⟨rfl, rfl⟩) h)
  next heq => exact hop heq (formN_spells ⟨rfl, rfl⟩ h)
  next heq => exact hop heq (formB_spells (fun _ => ⟨rfl, rfl⟩) h)
  next heq => exact hop heq (formB_spells (fun _ => ⟨rfl, rfl⟩) h)
  next heq => exact hop heq (formL_spells h)
  next heq => exact hop heq (formN_spells ⟨rfl, rfl⟩ h)
  next heq => exact hop heq (formN_spells ⟨rfl, rfl⟩ h)
  next heq => exact hop heq (formB_spells (fun _ => ⟨rfl, rfl⟩) h)
  next heq => exact hop heq (formN_spells ⟨rfl, rfl⟩ h)
  next => cases h

/-- Settles O2: an accepted command word is spelled by its instruction, an accepted frame by its access. -/
theorem encodeOfDecode : Obligations.EncodeOfDecode := by
  intro e i h
  cases e with
  | command w =>
    have hs := spells_of_decodeCommand h
    exact ⟨hs.encode_eq, hs.2⟩
  | frame f =>
    obtain ⟨a, m, hf, rfl⟩ := decodeFrame_eq_ok_iff.1 h
    obtain ⟨rfl, ha⟩ := encodeFrame_of_accessOf hf
    cases m with
    | read => exact ⟨rfl, ha⟩
    | write v => exact ⟨rfl, ha⟩

theorem decodeFrame_encodeFrame {a : Byte} (h : isRegAddr a = true) (m : AccessMode) :
    decodeFrame (encodeFrame a m) = .ok (frameOf a m) :=
  decodeFrame_eq_ok_iff.2 ⟨a, m, accessOf_encodeFrame h m, rfl⟩

theorem formX_encodeFrame {a : Byte} (h : isRegAddr a = true) (m : AccessMode) :
    formX ((encodeFrame a m).setWidth 32) = .ok (execOf a m) :=
  formX_setWidth_eq_ok_iff.2 ⟨a, m, accessOf_encodeFrame h m, rfl⟩

/-- Settles O1: each opcode's form reads back the operand that the encoder lays out. -/
theorem decodeOfEncode : Obligations.DecodeOfEncode := by
  intro i h
  cases i with
  | frameRead addr => exact decodeFrame_encodeFrame h .read
  | frameWrite addr data => exact decodeFrame_encodeFrame h (.write data)
  | execR addr => simpa [decode, encode, decodeCommand, execOf] using formX_encodeFrame h .read
  | execW addr data => simpa [decode, encode, decodeCommand, execOf] using formX_encodeFrame h (.write data)
  | setPllloop flt cpi bs fs => simpa [decode, encode, decodeCommand] using formP_setWidth flt cpi bs fs
  | setSysclkLed on => simpa [decode, encode, decodeCommand] using formL_setWidth on
  | setScratch v => simpa [decode, encode, decodeCommand] using formB_setWidth .setScratch v
  | txByte v => simpa [decode, encode, decodeCommand] using formB_setWidth .txByte v
  | setMod sel => simpa [decode, encode, decodeCommand, formS_eq_formB] using formB_setWidth .setMod sel
  | setFraming sel => simpa [decode, encode, decodeCommand, formS_eq_formB] using formB_setWidth .setFraming sel
  | setEncoding sel => simpa [decode, encode, decodeCommand, formS_eq_formB] using formB_setWidth .setEncoding sel
  | setFreq val => simp [decode, encode, decodeCommand, formW]
  | setTxrate val => simp [decode, encode, decodeCommand, formW]
  | _ => decide

/-! ### The rows of the opcode table: O3 -/

theorem encodesInRow (i : Instr) : (tableRow i).admits (encode i) := by
  cases i with
  | execR addr => exact Laws.EncodesInRow.execR addr
  | execW addr data => exact Laws.EncodesInRow.execW addr data
  | setScratch v => exact Laws.EncodesInRow.setScratch v
  | setPllloop flt cpi bs fs => exact Laws.EncodesInRow.setPllloop flt cpi bs fs
  | setFreq val => exact Laws.EncodesInRow.setFreq val
  | setTxrate val => exact Laws.EncodesInRow.setTxrate val
  | setMod sel => exact Laws.EncodesInRow.setMod sel
  | setFraming sel => exact Laws.EncodesInRow.setFraming sel
  | setEncoding sel => exact Laws.EncodesInRow.setEncoding sel
  | setSysclkLed on => exact Laws.EncodesInRow.setSysclkLed on
  | txByte v => exact Laws.EncodesInRow.txByte v
  | frameRead addr => exact Laws.EncodesInRow.frameRead addr
  | frameWrite addr data => exact Laws.EncodesInRow.frameWrite addr data
  | _ => exact ⟨rfl, by decide⟩

/-- The row whose words have the opcode `op` and, where the mask `m` has a 1, the operand bits `b`. -/
def commandRow (op : Byte) (b m : Operand) : TableRow := ⟨40, (commandWord op b).toNat, (commandWord 0xFF m).toNat⟩

theorem commandRow_admits {op : Byte} {b m : Operand} {w : CommandWord} (h : (commandRow op b m).admits (.command w)) :
    opField w = op ∧ opndField w &&& m = b := by
  have hw : w &&& commandWord 0xFF m = commandWord op b := BitVec.eq_of_toNat_eq h.2
  constructor
  · exact (extract_of_masked hw (opField_commandWord 0xFF m)).trans (opField_commandWord op b)
  · calc opndField w &&& m = opndField (w &&& commandWord 0xFF m) := by
          conv_lhs => rw [← opndField_commandWord 0xFF m]
          exact BitVec.extractLsb'_and.symm
      _ = b := by rw [hw, opndField_commandWord]

section
variable {op : Byte} {w : CommandWord}

theorem spells_of_fixedRow {i : Instr} {b : Operand} (hi : Spells i op b)
    (h : (commandRow op b 0xFFFFFFFF).admits (.command w)) : Spells i (opField w) (opndField w) := by
  obtain ⟨rfl, ho⟩ := commandRow_admits h
  have hb : opndField w = b := by rw [← ho]; exact BitVec.and_allOnes.symm
  rwa [hb]

/-- A row of zero operand bits asks 0 of every field that its mask covers. -/
theorem field_eq_zero_of_admits {m : Operand} {n k : Nat} (hm : m.extractLsb' n k = BitVec.allOnes k)
    (h : (commandRow op 0 m).admits (.command w)) : opField w = op ∧ (opndField w).extractLsb' n k = 0 := by
  obtain ⟨hop, ho⟩ := commandRow_admits h
  exact ⟨hop, (extract_of_masked ho hm).trans BitVec.extractLsb'_zero⟩

theorem spells_of_byteRow {mk : Byte → Instr} (hmk : ∀ v, Spells (mk v) op (v.setWidth 32))
    (h : (commandRow op 0 0xFFFFFF00).admits (.command w)) : ∃ j, Spells j (opField w) (opndField w) := by
  obtain ⟨rfl, h0⟩ := field_eq_zero_of_admits (n := 8) (k := 24) (by decide) h
  exact ⟨_, formB_spells hmk (if_pos h0)⟩

theorem spells_of_wordRow {mk : BitVec 32 → Instr} (hmk : ∀ v, Spells (mk v) op v)
    (h : (commandRow op 0 0).admits (.command w)) : ∃ j, Spells j (opField w) (opndField w) := by
  obtain ⟨rfl, -⟩ := commandRow_admits h
  exact ⟨_, formW_spells hmk rfl⟩

theorem spells_of_pllloopRow (h : (commandRow 0x05 0 0xFFFFFFC0).admits (.command w)) :
    ∃ j, Spells j (opField w) (opndField w) := by
  obtain ⟨hop, h0⟩ := field_eq_zero_of_admits (n := 6) (k := 26) (by decide) h
  exact ⟨_, hop ▸ formP_spells (if_pos h0)⟩

theorem spells_of_sysclkLedRow (h : (commandRow 0x0E 0 0xFFFFFFFE).admits (.command w)) :
    ∃ j, Spells j (opField w) (opndField w) := by
  obtain ⟨hop, h0⟩ := field_eq_zero_of_admits (n := 1) (k := 31) (by decide) h
  exact ⟨_, hop ▸ formL_spells (if_pos h0)⟩

theorem spells_of_readRow (h : (commandRow 0x01 0 0xFFFF80FF).admits (.command w)) :
    ∃ j, Spells j (opField w) (opndField w) := by
  obtain ⟨hop, h0⟩ := field_eq_zero_of_admits (n := 16) (k := 16) (by decide) h
  obtain ⟨-, hdata⟩ := field_eq_zero_of_admits (n := 0) (k := 8) (by decide) h
  obtain ⟨j, hj⟩ := exists_formX_eq_ok h0 (.inr hdata)
  exact ⟨j, hop ▸ formX_spells hj⟩

theorem spells_of_writeRow (h : (commandRow 0x01 0x8000 0xFFFF8000).admits (.command w)) :
    ∃ j, Spells j (opField w) (opndField w) := by
  obtain ⟨hop, ho⟩ := commandRow_admits h
  have h0 : (opndField w).extractLsb' 16 16 = 0 := (extract_of_masked ho (by decide)).trans (by decide)
  have hdir : (opndField w).getLsbD 15 = true := by simpa using congrArg (·.getLsbD 15) ho
  obtain ⟨j, hj⟩ := exists_formX_eq_ok h0 (.inl hdir)
  exact ⟨j, hop ▸ formX_spells hj⟩

/-- A command word that a row of the table admits is spelled by some instruction. -/
theorem exists_spells_of_admits {i : Instr} (h : (tableRow i).admits (.command w)) :
    ∃ j, Spells j (opField w) (opndField w) := by
  cases i with
  | execR addr => exact spells_of_readRow h
  | execW addr data => exact spells_of_writeRow h
  | getScratch => exact ⟨_, spells_of_fixedRow (i := .getScratch) ⟨rfl, rfl⟩ h⟩
  | setScratch v => exact spells_of_byteRow (mk := .setScratch) (fun _ => ⟨rfl, rfl⟩) h
  | setPwrmodePowerdown => exact ⟨_, spells_of_fixedRow (i := .setPwrmodePowerdown) ⟨rfl, rfl⟩ h⟩
  | setPwrmodeVregon => exact ⟨_, spells_of_fixedRow (i := .setPwrmodeVregon) ⟨rfl, rfl⟩ h⟩
  | setPwrmodeStandby => exact ⟨_, spells_of_fixedRow (i := .setPwrmodeStandby) ⟨rfl, rfl⟩ h⟩
  | setPwrmodeSynthtx => exact ⟨_, spells_of_fixedRow (i := .setPwrmodeSynthtx) ⟨rfl, rfl⟩ h⟩
  | setPwrmodeFulltx => exact ⟨_, spells_of_fixedRow (i := .setPwrmodeFulltx) ⟨rfl, rfl⟩ h⟩
  | setPllloop flt cpi bs fs => exact spells_of_pllloopRow h
  | setFreq val => exact spells_of_wordRow (mk := .setFreq) (fun _ => ⟨rfl, rfl⟩) h
  | getFreq => exact ⟨_, spells_of_fixedRow (i := .getFreq) ⟨rfl, rfl⟩ h⟩
  | setTxpwr => exact ⟨_, spells_of_fixedRow (i := .setTxpwr) ⟨rfl, rfl⟩ h⟩
  | setTxrate val => exact spells_of_wordRow (mk := .setTxrate) (fun _ => ⟨rfl, rfl⟩) h
  | setMod sel => exact spells_of_byteRow (mk := .setMod) (fun _ => ⟨rfl, rfl⟩) h
  | getMod => exact ⟨_, spells_of_fixedRow (i := .getMod) ⟨rfl, rfl⟩ h⟩
  | setFraming sel => exact spells_of_byteRow (mk := .setFraming) (fun _ => ⟨rfl, rfl⟩) h
  | setEncoding sel => exact spells_of_byteRow (mk := .setEncoding) (fun _ => ⟨rfl, rfl⟩) h
  | setSysclkLed on => exact spells_of_sysclkLedRow h
  | getPincfg1 => exact ⟨_, spells_of_fixedRow (i := .getPincfg1) ⟨rfl, rfl⟩ h⟩
  | getPincfg2 => exact ⟨_, spells_of_fixedRow (i := .getPincfg2) ⟨rfl, rfl⟩ h⟩
  | txByte v => exact spells_of_byteRow (mk := .txByte) (fun _ => ⟨rfl, rfl⟩) h
  | autorange => exact ⟨_, spells_of_fixedRow (i := .autorange) ⟨rfl, rfl⟩ h⟩
  | frameRead addr => exact nomatch h.1
  | frameWrite addr data => exact nomatch h.1

end

/-- Settles O3: what the decoder accepts lies in its row, and what a row admits is accepted. -/
theorem legalWordsAreTableRows : Obligations.LegalWordsAreTableRows := by
  intro w
  cases hd : decodeCommand w with
  | ok i => exact .inl ⟨i, rfl, (encodeOfDecode (.command w) i hd).1 ▸ encodesInRow i⟩
  | error r =>
    refine .inr ⟨⟨r, rfl⟩, fun i hi => ?_⟩
    obtain ⟨j, hj⟩ := exists_spells_of_admits hi
    have hok : decode (.command w) = .ok j := hj.encode_eq ▸ decodeOfEncode j hj.2
    exact nomatch hd.symm.trans hok

/-- Settles O4: each example is what the encoder gives, so it is what the decoder reads. -/
theorem commandWordExamples : Obligations.CommandWordExamples := by
  intro p hp
  have hp' : encode p.2 = .command p.1 ∧ p.2.wellFormed = true := by
    revert p
    decide
  obtain ⟨henc, hwf⟩ := hp'
  have hdec := decodeOfEncode p.2 hwf
  rw [henc] at hdec
  exact ⟨hdec, henc⟩

end Sys2Proof
end

section
/-! SUPPORT. Proofs about the bytes and responses that commands make (30_encoding.md R60 to R62, R66): the fields packed
into the PLLLOOP byte and into a response, what a configuration command writes, and the shape of every response. -/

namespace Sys2Proof.Machine

open Sys2Proof

/-! ### The commands that write one register: O27, O28, O29 -/

/-- A command that writes one register sends the write frame's two bytes and answers OK, whatever it receives. -/
theorem completes_of_write {i : Instr} {addr v : Byte} (status data : Byte)
    (hp : ∀ p l, planOf i p l = oneTransaction addr (.write v) writeResponse p l) :
    CompletesWith i [⟨0x80#8 ||| addr, v, status, data⟩] okResponse :=
  completes_of_oneTransaction status data hp (frameHigh_encode_write addr v) (frameLow_encode_write addr v)

/-- Settles O27: each mode's code, zero-extended, is the byte of one write to 0x02. -/
theorem setPwrmodeCompletes : Obligations.SetPwrmodeCompletes := fun status data =>
  ⟨completes_of_write (addr := 0x02) status data fun _ _ => rfl,
    completes_of_write (addr := 0x02) status data fun _ _ => rfl,
    completes_of_write (addr := 0x02) status data fun _ _ => rfl,
    completes_of_write (addr := 0x02) status data fun _ _ => rfl,
    completes_of_write (addr := 0x02) status data fun _ _ => rfl⟩

/-- Settles O28: one write to 0x2C. -/
theorem setPllloopCompletes : Obligations.SetPllloopCompletes := fun _ _ _ _ status data =>
  completes_of_write (addr := 0x2C) status data fun _ _ => rfl

/-- With the supported selector the check passes and 0x00 is written. -/
theorem selectorCommand_zero (addr : Byte) (p : Nat) (l : Locals) :
    selectorCommand addr 0 p l = oneTransaction addr (.write 0x00) writeResponse p l := rfl

/-- Settles O29, by the selector check that passes. -/
theorem selectorCommandsComplete : Obligations.SelectorCommandsComplete := fun status data =>
  ⟨completes_of_write (addr := 0x10) status data (selectorCommand_zero _),
    completes_of_write status data (selectorCommand_zero _),
    completes_of_write status data (selectorCommand_zero _)⟩

/-! ### The PLLLOOP byte (R61): O34, O35 -/

/-- A sub-field of the byte, at its position. -/
def placed {n : Nat} (x : BitVec n) (pos : Nat) : Byte := x.setWidth 8 <<< pos

theorem getLsbD_fieldMask (pos width j : Nat) :
    (fieldMask pos width).getLsbD j = (decide (j < 8) && (decide (pos ≤ j) && decide (j < pos + width))) := by
  rw [fieldMask, BitVec.getLsbD_ofNat, Nat.testBit_mul_two_pow, Nat.testBit_two_pow_sub_one]
  congr 1
  by_cases h : pos ≤ j
  · simp only [h, decide_true, Bool.true_and, decide_eq_decide]; omega
  · simp [h]

theorem extract_fieldMask {pos n : Nat} (h : pos + n ≤ 8) : (fieldMask pos n).extractLsb' pos n = BitVec.allOnes n := by
  apply BitVec.eq_of_getLsbD_eq
  intro j hj
  simp [getLsbD_fieldMask, hj, show pos + j < 8 by omega]

/-- A sub-field that lies in the byte is read back at its position. -/
theorem extract_placed {n pos : Nat} (h : pos + n ≤ 8) (x : BitVec n) : (placed x pos).extractLsb' pos n = x := by
  apply BitVec.eq_of_getLsbD_eq
  intro j hj
  simp [placed, hj, show pos + j < 8 by omega]

/-- A sub-field covers no bit outside its mask. -/
theorem placed_and_fieldMask {n : Nat} (x : BitVec n) (pos : Nat) : placed x pos &&& fieldMask pos n = placed x pos := by
  apply BitVec.eq_of_getLsbD_eq
  intro j hj
  rw [BitVec.getLsbD_and, getLsbD_fieldMask]
  by_cases hbit : (placed x pos).getLsbD j = true
  · obtain ⟨hpos, hx⟩ : pos ≤ j ∧ x.getLsbD (j - pos) = true := by
      simpa [placed, hj, show j - pos < 8 by omega] using hbit
    have hlt := BitVec.lt_of_getLsbD hx
    simp [hj, hpos, show j < pos + n by omega]
  · simp [hbit]

/-- Two fields of the byte share no bit. -/
def Apart (pos n q m : Nat) : Prop := fieldMask pos n &&& fieldMask q m = 0#8

theorem Apart.symm {pos n q m : Nat} (h : Apart pos n q m) : Apart q m pos n := (BitVec.and_comm _ _).trans h

/-- A sub-field is not seen in a field apart from it. -/
theorem extract_placed_of_apart {n m pos q : Nat} (hpos : pos + n ≤ 8) (h : Apart q m pos n) (x : BitVec m) :
    (placed x q).extractLsb' pos n = 0#n := by
  have hzero : placed x q &&& fieldMask pos n = 0#8 := by
    rw [← placed_and_fieldMask, BitVec.and_assoc, h, BitVec.and_zero]
  exact (extract_of_masked hzero (extract_fieldMask hpos)).trans BitVec.extractLsb'_zero

/-- What a mask removes is not seen in a field that it covers. -/
theorem extract_uncovered {mask : Byte} {pos n : Nat} (h : mask.extractLsb' pos n = BitVec.allOnes n) (rest : Byte) :
    (rest &&& ~~~ mask).extractLsb' pos n = 0#n := by
  have hzero : (rest &&& ~~~ mask) &&& mask = 0#8 := by
    rw [BitVec.and_assoc, BitVec.and_comm (~~~ mask), BitVec.and_not_self]
    exact BitVec.and_zero
  exact (extract_of_masked hzero h).trans BitVec.extractLsb'_zero

/-- A layout that fits keeps the sub-fields inside the byte and apart from each other. -/
theorem apart_of_layoutFits {p : PllLoopLayout} (h : layoutFits p = true) :
    (p.flt + 2 ≤ 8 ∧ p.cpi + 2 ≤ 8 ∧ p.bs + 1 ≤ 8 ∧ p.fs + 1 ≤ 8) ∧ Apart p.flt 2 p.cpi 2 ∧
    (Apart p.flt 2 p.bs 1 ∧ Apart p.cpi 2 p.bs 1) ∧
    (Apart p.flt 2 p.fs 1 ∧ Apart p.cpi 2 p.fs 1 ∧ Apart p.bs 1 p.fs 1) := by
  simp only [layoutFits, Bool.and_eq_true, decide_eq_true_eq, beq_iff_eq, BitVec.and_or_distrib_right] at h
  obtain ⟨⟨⟨⟨⟨⟨hflt, hcpi⟩, hbs⟩, hfs⟩, hc⟩, hb⟩, hf⟩ := h
  obtain ⟨hfb, hcb⟩ := BitVec.or_eq_zero_iff.1 hb
  obtain ⟨hffcf, hbf⟩ := BitVec.or_eq_zero_iff.1 hf
  obtain ⟨hff, hcf⟩ := BitVec.or_eq_zero_iff.1 hffcf
  exact ⟨⟨by omega, by omega, by omega, by omega⟩, hc, ⟨hfb, hcb⟩, hff, hcf, hbf⟩

theorem packPllLoopAt_eq_placed (p : PllLoopLayout) (flt cpi : BitVec 2) (bs fs : BitVec 1) :
    packPllLoopAt p flt cpi bs fs = placed flt p.flt ||| placed cpi p.cpi ||| placed bs p.bs ||| placed fs p.fs |||
      (p.rest &&& ~~~ layoutMask p) := rfl

/-- Under a layout that fits, each sub-field is read back at its position. -/
theorem extract_packPllLoopAt {p : PllLoopLayout} (h : layoutFits p = true) (flt cpi : BitVec 2) (bs fs : BitVec 1) :
    (packPllLoopAt p flt cpi bs fs).extractLsb' p.flt 2 = flt ∧
    (packPllLoopAt p flt cpi bs fs).extractLsb' p.cpi 2 = cpi ∧
    (packPllLoopAt p flt cpi bs fs).extractLsb' p.bs 1 = bs ∧
    (packPllLoopAt p flt cpi bs fs).extractLsb' p.fs 1 = fs := by
  obtain ⟨⟨hflt, hcpi, hbs, hfs⟩, hfc, ⟨hfb, hcb⟩, hff, hcf, hbf⟩ := apart_of_layoutFits h
  have mask : ∀ pos n, (layoutMask p).extractLsb' pos n = (fieldMask p.flt 2).extractLsb' pos n |||
      (fieldMask p.cpi 2).extractLsb' pos n ||| (fieldMask p.bs 1).extractLsb' pos n |||
      (fieldMask p.fs 1).extractLsb' pos n := fun _ _ => by simp only [layoutMask, BitVec.extractLsb'_or]
  simp only [packPllLoopAt_eq_placed, BitVec.extractLsb'_or]
  refine ⟨?_, ?_, ?_, ?_⟩
  · have hm := extract_fieldMask hflt
    rw [extract_placed hflt, extract_placed_of_apart hflt hfc.symm, extract_placed_of_apart hflt hfb.symm,
      extract_placed_of_apart hflt hff.symm, extract_uncovered (by simp only [mask, hm, BitVec.allOnes_or])]
    simp only [BitVec.or_zero]
  · have hm := extract_fieldMask hcpi
    rw [extract_placed hcpi, extract_placed_of_apart hcpi hfc, extract_placed_of_apart hcpi hcb.symm,
      extract_placed_of_apart hcpi hcf.symm,
      extract_uncovered (by simp only [mask, hm, BitVec.allOnes_or, BitVec.or_allOnes])]
    simp only [BitVec.or_zero, BitVec.zero_or]
  · have hm := extract_fieldMask hbs
    rw [extract_placed hbs, extract_placed_of_apart hbs hfb, extract_placed_of_apart hbs hcb,
      extract_placed_of_apart hbs hbf.symm,
      extract_uncovered (by simp only [mask, hm, BitVec.allOnes_or, BitVec.or_allOnes])]
    simp only [BitVec.or_zero, BitVec.zero_or]
  · have hm := extract_fieldMask hfs
    rw [extract_placed hfs, extract_placed_of_apart hfs hff, extract_placed_of_apart hfs hcf,
      extract_placed_of_apart hfs hbf, extract_uncovered (by simp only [mask, hm, BitVec.or_allOnes])]
    simp only [BitVec.or_zero, BitVec.zero_or]

theorem layoutFits_pllLoopLayout : layoutFits pllLoopLayout = true := by
  have hne : allLayouts Config.pllLoopRest ≠ [] := by
    refine List.ne_nil_of_mem (a := { defaultLayout with rest := Config.pllLoopRest }) ?_
    simp [allLayouts, defaultLayout]; decide
  exact (List.mem_filter.1 (choose_mem hne _ _)).2

/-- Settles O35: the open layout is one of those that fit. -/
theorem pllLoopFieldsStand : Obligations.PllLoopFieldsStand := extract_packPllLoopAt layoutFits_pllLoopLayout

/-- Settles O34: under the default layout the uncovered bits are 0 and FLT is not shifted. -/
theorem defaultPllLoopPacking : Obligations.DefaultPllLoopPacking := by
  intro flt cpi bs fs
  have hrest : defaultLayout.rest &&& ~~~ layoutMask defaultLayout = 0#8 := BitVec.zero_and
  rw [packPllLoopAt_eq_placed, hrest, BitVec.or_zero]
  simp only [placed, defaultLayout, BitVec.shiftLeft_zero]
  ac_rfl

/-! ### The packed response (R66): O7 -/

/-- The packed response is its fields one beside the other. -/
theorem packResponse_eq_append (r : Response) :
    packResponse r = codeBits r.code ++ 0#3 ++ BitVec.ofBool r.sv ++ r.status ++ r.data := by
  apply BitVec.eq_of_getLsbD_eq
  intro j hj
  simp only [packResponse, BitVec.getLsbD_append, BitVec.getLsbD_or, BitVec.getLsbD_shiftLeft, BitVec.getLsbD_setWidth]
  interval_cases j <;> simp

/-- Settles O7, field by field of the packed response. -/
theorem packedResponseFields : Obligations.PackedResponseFields := by
  refine ⟨fun r => ?_, rfl⟩
  rw [packResponse_eq_append]
  refine ⟨?_, ?_, ?_, ?_, ?_⟩
  · simp (disch := omega) only [BitVec.extractLsb'_append_eq_of_le, Nat.reduceSub, BitVec.extractLsb'_eq_self]
  · simp (disch := omega) only [BitVec.extractLsb'_append_eq_of_le, Nat.reduceSub, BitVec.extractLsb'_append_eq_right]
  · simp only [BitVec.getLsbD_append]; simp
  · simp (disch := omega) only [BitVec.extractLsb'_append_eq_of_le, Nat.reduceSub, BitVec.extractLsb'_append_eq_right]
  · exact BitVec.extractLsb'_append_eq_right

/-! ### Responses: O9, O54 -/

/-- Settles O9, by the step's rule for an illegal word. -/
theorem illegalWordIsAnswered : Obligations.IllegalWordIsAnswered := by
  intro s w ws e ha hc hd
  have hp : s.phase = .idle := ha.1
  rw [(Stepped.illegal ha hc hd).step_eq]
  simp [raise, finish, errorResponse, dropCommand, hp]

/-- The action ends the command, if it does, with a response of the right shape. -/
def ActionShape : Action → Prop
  | .transact _ _ _ _ => True
  | .respond _ r => ResponseShape r
  | .raise _ c v => ResponseShape (errorResponse c v)

theorem responseShape_okResponse : ResponseShape okResponse := fun _ => rfl

theorem responseShape_dataResponse (v : BitVec 32) : ResponseShape (dataResponse v) := fun _ => rfl

theorem responseShape_statusResponse (status : Byte) (v : BitVec 32) : ResponseShape (statusResponse status v) := nofun

theorem oneTransaction_actionShape {res : Byte → Byte → Response} (hres : ∀ status data, ResponseShape (res status data))
    (addr : Byte) (m : AccessMode) (poll : Nat) (l : Locals) : ActionShape (oneTransaction addr m res poll l) := by
  unfold oneTransaction
  split
  · trivial
  · exact hres _ _

theorem selectorCommand_actionShape (addr sel : Byte) (poll : Nat) (l : Locals) :
    ActionShape (selectorCommand addr sel poll l) := by
  unfold selectorCommand
  split
  · exact ⟨rfl, rfl, rfl⟩
  · exact oneTransaction_actionShape (fun _ _ => responseShape_okResponse) ..

/-- GET_MOD raises UnrecognizedState only with the nonzero byte it has read (R117, R157). -/
theorem getModPlan_actionShape (poll : Nat) (l : Locals) : ActionShape (getModPlan poll l) := by
  unfold getModPlan
  split
  · trivial
  · split
    · exact responseShape_dataResponse 0
    next h0 =>
      have hpos : l.data.toNat ≠ 0 := fun h => h0 (BitVec.eq_of_toNat_eq h)
      have hdata : (l.data.setWidth 32).toNat = l.data.toNat := BitVec.toNat_setWidth_of_le (by decide)
      exact ⟨rfl, rfl, by rw [errorResponse, hdata]; omega, by rw [errorResponse, hdata]; exact l.data.isLt⟩

theorem afterPoll_actionShape (poll : Nat) (l : Locals) : ActionShape (afterPoll poll l) := by
  unfold afterPoll
  split
  · split
    · trivial
    · exact ⟨rfl, rfl, rfl⟩
  · split
    · exact ⟨rfl, rfl, rfl⟩
    · exact responseShape_dataResponse _

theorem planOf_actionShape (i : Instr) (poll : Nat) (l : Locals) : ActionShape (planOf i poll l) := by
  cases i with
  | setFreq val =>
    simp only [planOf, setFreqPlan]
    split
    case h_5 => exact responseShape_okResponse
    all_goals trivial
  | getFreq =>
    simp only [planOf, getFreqPlan]
    split
    case h_5 => exact responseShape_dataResponse _
    all_goals trivial
  | setTxrate val =>
    simp only [planOf, setTxratePlan]
    split
    case h_4 => exact responseShape_okResponse
    all_goals trivial
  | autorange =>
    simp only [planOf, autorangePlan]
    split
    case h_3 => exact afterPoll_actionShape poll l
    all_goals trivial
  | getMod => exact getModPlan_actionShape poll l
  | setMod sel => exact selectorCommand_actionShape ..
  | setFraming sel => exact selectorCommand_actionShape ..
  | setEncoding sel => exact selectorCommand_actionShape ..
  | execR addr => exact oneTransaction_actionShape (fun _ _ => responseShape_statusResponse _ _) ..
  | execW addr data => exact oneTransaction_actionShape (fun _ _ => responseShape_statusResponse _ _) ..
  | frameRead addr => exact oneTransaction_actionShape (fun _ _ => responseShape_statusResponse _ _) ..
  | frameWrite addr data => exact oneTransaction_actionShape (fun _ _ => responseShape_statusResponse _ _) ..
  | txByte v => exact oneTransaction_actionShape (fun _ _ => responseShape_statusResponse _ _) ..
  | getScratch => exact oneTransaction_actionShape (fun _ _ => responseShape_dataResponse _) ..
  | getPincfg1 => exact oneTransaction_actionShape (fun _ _ => responseShape_dataResponse _) ..
  | getPincfg2 => exact oneTransaction_actionShape (fun _ _ => responseShape_dataResponse _) ..
  | _ => exact oneTransaction_actionShape (fun _ _ => responseShape_okResponse) ..

/-- A step of a command makes a response only by ending it with one of the right shape. -/
theorem effectOf_shape {l : Locals} {a : Action} {d : DriveAnswer} {x : ExchangeAnswer} {r : Response}
    (ha : ActionShape a) (h : effectOf l a d x = .finish r) : ResponseShape r := by
  cases hl : l.point with
  | between =>
    simp only [effectOf, hl] at h
    cases a with
    | transact p l' addr m => rcases d with ⟨_ | _⟩ | _ <;> cases h
    | respond p r' => cases h; exact ha
    | raise p c v => cases h; exact ha
  | sendHigh => cases x <;> simp_all [effectOf]
  | sendLow => cases x <;> simp_all [effectOf]
  | release => rcases d with ⟨_ | _⟩ | _ <;> simp_all [effectOf]
  | restore => cases d <;> simp_all [effectOf]
  | failed =>
    simp only [effectOf, hl] at h
    cases h
    exact ⟨rfl, rfl, rfl⟩

theorem advance_responseShape {i : Instr} {k : Nat} {l : Locals} {s : State} {r : Response} (hs : s.resp = none)
    (h : (advance i (planOf i) k l s).resp = some r) : ResponseShape r := by
  rw [advance_eq_effect] at h
  cases he : effectOf l (planOf i s.poll l) (driveAnswer s) (exchangeAnswer s) with
  | finish r' =>
    rw [he] at h
    cases h
    exact effectOf_shape (planOf_actionShape i s.poll l) he
  | _ =>
    rw [he] at h
    exact nomatch hs.symm.trans h

/-- Settles O54, rule by rule of the step. -/
theorem responsesHaveTheirShape : Obligations.ResponsesHaveTheirShape := by
  intro s t r h hs ht
  cases step_eq_next_iff.1 h with
  | reset hz => cases ht
  | busy hz hp => exact advance_responseShape hs ht
  | taken hz hp hr hh => cases ht
  | held hz hp hr hh => exact nomatch hs.symm.trans ht
  | noCommand ha hc => exact nomatch hs.symm.trans ht
  | @accepted w ws i ha hc hd => exact advance_responseShape (s := accept i (dropCommand ws s)) hs ht
  | illegal ha hc hd => cases ht; exact ⟨rfl, rfl, rfl⟩

end Sys2Proof.Machine
end

section
/-! SUPPORT. Proofs about the framer (40_framer.md): the frames and the status byte, the transaction engine that serves every
command, and the four ways in which a transaction fails. -/

namespace Sys2Proof.Machine

open Sys2Proof

/-! ### Frames and the status byte (R101 to R103): O5, O6 -/

/-- Settles O5, field by field of the two frames. -/
theorem frameFields : Obligations.FrameFields := by
  intro a v
  have haddr : (a.setWidth 8).setWidth 7 = a := by simp
  have hreg := isRegAddr_setWidth a
  exact ⟨⟨decodeDir_encode_read _, (decodeAddress_encode _ _).trans haddr, decodeData_encode_read _,
      frameHigh_encode_read hreg, frameLow_encode_read _⟩,
    decodeDir_encode_write _ _, (decodeAddress_encode _ _).trans haddr, decodeData_encode_write _ _,
    frameHigh_encode_write _ _, frameLow_encode_write _ _⟩

/-- A flag of a byte in arithmetic: the binary digit at its index. -/
theorem getLsbD_eq_true_iff_digit (b : Byte) (n : Nat) : b.getLsbD n = true ↔ b.toNat / 2 ^ n % 2 = 1 := by
  rw [BitVec.getLsbD, Nat.testBit_eq_decide_div_mod_eq, decide_eq_true_iff]

theorem fifoStatus_toNat (b : Byte) : (decodeStatus b).fifoStatus.toNat = b.toNat / 64 := by
  have hlt := b.isLt
  simp only [decodeStatus, decodeStatusAt, BitVec.extractLsb'_toNat, Nat.shiftRight_eq_div_pow]
  omega

/-- Settles O6: each flag is the digit at its own index, whatever the index. -/
theorem statusDecodesByBits : Obligations.StatusDecodesByBits := fun b =>
  ⟨fifoStatus_toNat b, getLsbD_eq_true_iff_digit b _, getLsbD_eq_true_iff_digit b _, getLsbD_eq_true_iff_digit b _,
    getLsbD_eq_true_iff_digit b _, getLsbD_eq_true_iff_digit b _⟩

/-! ### `cs` follows the drives (R106): O17 -/

/-- From `s` to `t` at most one event was performed, and `cs` is what R106 makes of it. -/
def CsFollows (s t : State) : Prop :=
  (t.env.trace = s.env.trace ∧ t.cs = s.cs) ∨
  (t.env.trace = s.env.trace ++ [.drive .low .ok] ∧ t.cs = .low) ∨
  (t.env.trace = s.env.trace ++ [.drive .high .ok] ∧ t.cs = .high) ∨
  (∃ d, t.env.trace = s.env.trace ++ [.drive d .err] ∧ t.cs = .unknown) ∨
  (∃ out b, t.env.trace = s.env.trace ++ [.exchange out b] ∧ t.cs = s.cs)

theorem doDrive_csFollows (d : Drive) (r : DriveResult) (s : State) : CsFollows s (doDrive d r s) := by
  cases r with
  | err => exact .inr (.inr (.inr (.inl ⟨d, rfl, csAfter_err d⟩)))
  | ok =>
    cases d with
    | low => exact .inr (.inl ⟨rfl, rfl⟩)
    | high => exact .inr (.inr (.inl ⟨rfl, rfl⟩))

theorem Effect.apply_csFollows (e : Effect) (i : Instr) (k : Nat) (s : State) : CsFollows s (e.apply i k s) := by
  cases e with
  | wait => exact .inl ⟨rfl, rfl⟩
  | drive d r l => exact doDrive_csFollows d r s
  | exchange out b l => exact .inr (.inr (.inr (.inr ⟨out, b, rfl, rfl⟩)))
  | finish r => exact .inl ⟨rfl, rfl⟩

theorem advance_csFollows (i : Instr) (plan : Nat → Locals → Action) (k : Nat) (l : Locals) (s : State) :
    CsFollows s (advance i plan k l s) := by
  rw [advance_eq_effect]
  exact Effect.apply_csFollows _ i k s

/-- Settles O17: the rules of the step that run no command perform no event and leave `cs`. -/
theorem csFollowsTheDrives : Obligations.CsFollowsTheDrives := by
  intro s t hz h
  cases step_eq_next_iff.1 h with
  | reset hz' => exact nomatch hz.symm.trans hz'
  | busy _ hp => exact advance_csFollows ..
  | taken _ hp hr hh => exact .inl ⟨rfl, rfl⟩
  | held _ hp hr hh => exact .inl ⟨rfl, rfl⟩
  | noCommand ha hc => exact .inl ⟨rfl, rfl⟩
  | @accepted w ws i ha hc hd => exact advance_csFollows i (planOf i) 0 Locals.fresh (accept i (dropCommand ws s))
  | illegal ha hc hd => exact .inl ⟨rfl, rfl⟩

/-! ### One engine for every command (R104): O18 -/

section
variable {i : Instr} {k : Nat} {l : Locals} {s : State}

theorem asCommand_of_busy (j : Instr) (hp : s.phase = .busy i k l) : asCommand j s = setBusy j k l s := by
  simp only [asCommand, hp, setBusy]

theorem asCommand_setPoll (j : Instr) (p : Nat) (s : State) : asCommand j (setPoll p s) = setPoll p (asCommand j s) := by
  cases hp : s.phase <;> simp [asCommand, setPoll, hp]

/-- While a transaction is in flight the pseudocode's action has no say in the effect. -/
theorem effectOf_inFlight (hl : l.point ≠ .between) (a b : Action) (d : DriveAnswer) (x : ExchangeAnswer) :
    effectOf l a d x = effectOf l b d x := by
  cases hq : l.point with
  | between => exact absurd hq hl
  | _ => simp only [effectOf, hq]

theorem Effect.apply_asCommand (e : Effect) (j : Instr) (hp : s.phase = .busy i k l) :
    e.apply j k (asCommand j s) = asCommand j (e.apply i k s) := by
  rw [asCommand_of_busy j hp]
  cases e with
  | wait => exact (asCommand_of_busy j hp).symm
  | drive d r l' => rfl
  | exchange out b l' => rfl
  | finish r => rfl

theorem advance_asCommand (j : Instr) (hp : s.phase = .busy i k l) (hl : l.point ≠ .between) :
    advance j (planOf j) k l (asCommand j s) = asCommand j (advance i (planOf i) k l s) := by
  have henv : (asCommand j s).env = s.env ∧ (asCommand j s).poll = s.poll := by
    rw [asCommand_of_busy j hp]; exact ⟨rfl, rfl⟩
  have hd : driveAnswer (asCommand j s) = driveAnswer s := by simp only [driveAnswer, henv]
  have hx : exchangeAnswer (asCommand j s) = exchangeAnswer s := by simp only [exchangeAnswer, henv]
  rw [advance_eq_effect, advance_eq_effect, nextPoll_inFlight hl, nextPoll_inFlight hl, hd, hx, henv.2,
    asCommand_setPoll, effectOf_inFlight hl _ (planOf i s.poll l), Effect.apply_asCommand _ j hp]

end

/-- Settles O18, by the effect of a step in flight, which no pseudocode chooses. -/
theorem oneEngineForEveryCommand : Obligations.OneEngineForEveryCommand := by
  intro i j s t k l hp hl h
  rw [exec_of_busy hp] at h
  cases h
  have hj : (asCommand j s).phase = .busy j k l := by rw [asCommand_of_busy j hp]; rfl
  rw [exec_of_busy hj, advance_asCommand j hp hl]

/-! ### EXEC and the wire frames complete (R101, R102, R108): O19, O20 -/

theorem planOf_execOf (addr : Byte) (m : AccessMode) : planOf (execOf addr m) = oneTransaction addr m execResponse := by
  cases m <;> rfl

theorem planOf_frameOf (addr : Byte) (m : AccessMode) : planOf (frameOf addr m) = oneTransaction addr m execResponse := by
  cases m <;> rfl

/-- An instruction with the pseudocode of EXEC sends the two bytes of its access and returns the two it receives. -/
theorem completes_of_execPlan {i : Instr} {addr : Byte} {m : AccessMode} (h : isRegAddr addr = true)
    (hp : planOf i = oneTransaction addr m execResponse) (status data : Byte) :
    CompletesWith i [⟨(sentBytes addr m).1, (sentBytes addr m).2, status, data⟩] (execResponse status data) :=
  completes_of_oneTransaction status data (fun _ _ => by rw [hp]) (frame_bytes h m).1 (frame_bytes h m).2

/-- Settles O19. -/
theorem execCompletes : Obligations.ExecCompletes := fun addr m status data h =>
  completes_of_execPlan h (planOf_execOf addr m) status data

/-- Settles O20. -/
theorem wireFramesComplete : Obligations.WireFramesComplete := fun addr m status data h =>
  completes_of_execPlan h (planOf_frameOf addr m) status data

/-! ### What is left of a command after a failure (R105) -/

@[simp] theorem driveAnswer_setBusy (i : Instr) (k : Nat) (l : Locals) (s : State) :
    driveAnswer (setBusy i k l s) = driveAnswer s := rfl

@[simp] theorem driveAnswer_doExchange (out : Byte) (b : Option Byte) (s : State) :
    driveAnswer (doExchange out b s) = driveAnswer s := rfl

theorem csAfter_high (o : DriveResult) : csAfter .high o = if o = .ok then .high else .unknown := by
  cases o <;> rfl

theorem step_of_run_one {s t : State} (h : run 1 s = .next t) : step s = .next t := by
  obtain ⟨s', hs, hr⟩ := run_succ_cases h
  cases hr
  exact hs

/-- The byte that an exchange at this point sends. -/
def nextByte (l : Locals) : Byte := if l.point = .sendHigh then frameHigh l.frame else frameLow l.frame

section
variable {i : Instr} {k : Nat} {l : Locals} {s : State}

theorem advance_of_failedExchange (plan : Nat → Locals → Action) (hl : l.point = .sendHigh ∨ l.point = .sendLow)
    (hx : exchangeAnswer s = .err) :
    advance i plan k l s = setBusy i (k + 1) { l with point := .restore } (doExchange (nextByte l) none s) := by
  rcases hl with hl | hl
  · rw [advance_sendHigh hl, exchangeHigh_err hx, nextByte, if_pos hl]
  · rw [advance_sendLow hl, exchangeLow_err hx, nextByte, if_neg (by simp [hl])]

section
variable (hz : s.env.resetLine = false) (hp : s.phase = .busy i k l)
include hz hp

/-- A command in progress takes its next step by `exec`. -/
theorem exec_run_of_busy {n : Nat} {t : State} (h : run (n + 1) s = .next t) :
    ∃ s1, exec i s = .next s1 ∧ run n s1 = .next t := by
  rw [run_succ_of_busy hz hp] at h
  exact ⟨_, exec_of_busy hp, h⟩

theorem run_of_failed (hl : l.point = .failed) : run 1 s = .next (raise .busFault 0 s) := by
  rw [run_succ_of_busy hz hp, advance_failed hl, run_zero]

/-- The restore drive, whatever it returns, then BusFault. -/
theorem run_of_restore {o : DriveResult} (hl : l.point = .restore) (hd : driveAnswer s = .returns o) :
    run 2 s = .next (raise .busFault 0 (doDrive .high o s)) := by
  rw [run_succ_of_busy hz hp, advance_restore hl, restoreCs_returns hd, run_of_failed (by exact hz) rfl rfl]
  rfl

/-- A failed final drive is not made again. -/
theorem run_of_failedCsHigh (hl : l.point = .release) (hd : driveAnswer s = .returns .err) :
    run 2 s = .next (raise .busFault 0 (doDrive .high .err s)) := by
  rw [run_succ_of_busy hz hp, advance_release hl, releaseCs_err hd, run_of_failed (by exact hz) rfl rfl]
  rfl

/-- A failed exchange, the restore drive, BusFault. -/
theorem run_of_failedExchange {o : DriveResult} (hl : l.point = .sendHigh ∨ l.point = .sendLow)
    (hx : exchangeAnswer s = .err) (hd : driveAnswer s = .returns o) :
    run 3 s = .next (raise .busFault 0 (doDrive .high o (doExchange (nextByte l) none s))) := by
  rw [run_succ_of_busy hz hp, advance_of_failedExchange _ hl hx,
    run_of_restore (o := o) (by exact hz) rfl rfl (by simpa using hd)]
  rfl

end

/-- A step between transactions ends the command without an event, or is the CsLow that fails. -/
theorem advance_of_failedCsLow (plan : Nat → Locals → Action) (hl : l.point = .between)
    (hd : driveAnswer s = .returns .err) :
    ((advance i plan k l s).phase = .idle ∧ (advance i plan k l s).env = s.env) ∨
    (∃ l', (advance i plan k l s).phase = .busy i (k + 1) l' ∧ l'.point = .restore ∧
      (advance i plan k l s).cs = .unknown ∧
      (advance i plan k l s).env.trace = s.env.trace ++ [.drive .low .err]) := by
  rw [advance_between hl]
  cases plan s.poll l with
  | transact poll l' addr m =>
    rw [act, beginTransact_err hd]
    exact .inr ⟨_, rfl, rfl, rfl, rfl⟩
  | respond poll r => exact .inl ⟨rfl, rfl⟩
  | raise poll c v => exact .inl ⟨rfl, rfl⟩

end

/-- Settles O23: the remaining steps after each failure, of which the last raises BusFault. -/
theorem anyFailureEndsTheCommand : Obligations.AnyFailureEndsTheCommand := by
  intro i s k l o hz hp
  refine ⟨fun hl hd => ⟨_, exec_of_busy hp, advance_of_failedCsLow _ hl hd⟩, fun hl hd => ?restore,
    fun hl hd => ?release, fun hl hx hd => ?exchange⟩
  case restore =>
    obtain ⟨s1, h1, hr⟩ := exec_run_of_busy hz hp (run_of_restore hz hp hl hd)
    exact ⟨s1, _, h1, step_of_run_one hr, rfl, rfl, rfl, csAfter_high o, rfl⟩
  case release =>
    obtain ⟨s1, h1, hr⟩ := exec_run_of_busy hz hp (run_of_failedCsHigh hz hp hl hd)
    exact ⟨s1, _, h1, step_of_run_one hr, rfl, rfl, rfl, rfl, rfl⟩
  case exchange =>
    obtain ⟨s1, h1, hr⟩ := exec_run_of_busy hz hp (run_of_failedExchange hz hp hl hx hd)
    obtain ⟨s2, h2, hr⟩ := run_succ_cases hr
    exact ⟨s1, s2, _, nextByte l, h1, h2, step_of_run_one hr, rfl, rfl, rfl, csAfter_high o, rfl, by simp⟩

/-! ### The four failure traces of a transaction (R105): O22 -/

section
variable {i : Instr} {poll k : Nat} {l l' : Locals} {addr : Byte} {m : AccessMode} {s : State}
  (hz : s.env.resetLine = false) (hp : s.phase = .busy i k l)
include hz hp

theorem run_of_startedTransact {n : Nat} (hl : l.point = .between) (ha : planOf i s.poll l = .transact poll l' addr m)
    (hd : driveAnswer s = .returns .ok) :
    run (n + 1) s = run n (setBusy i (k + 1) { l' with point := .sendHigh, frame := encodeFrame addr m }
      (setPoll poll (doDrive .low .ok s))) := by
  rw [run_succ_of_busy hz hp, advance_between hl, ha, act, beginTransact_ok hd]

theorem run_of_sentHigh {n : Nat} {status : Byte} (hl : l.point = .sendHigh) (hx : exchangeAnswer s = .ok status) :
    run (n + 1) s = run n (setBusy i (k + 1) { l with point := .sendLow, status := status }
      (doExchange (frameHigh l.frame) (some status) s)) := by
  rw [run_succ_of_busy hz hp, advance_sendHigh hl, exchangeHigh_ok hx]

theorem run_of_sentLow {n : Nat} {data : Byte} (hl : l.point = .sendLow) (hx : exchangeAnswer s = .ok data) :
    run (n + 1) s = run n (setBusy i (k + 1) { l with point := .release, data := data }
      (doExchange (frameLow l.frame) (some data) s)) := by
  rw [run_succ_of_busy hz hp, advance_sendLow hl, exchangeLow_ok hx]

end

/-! Each row of R105, for the transaction that a command's pseudocode starts, whichever command it is. The run counts the
step that starts it. -/

section
variable {i : Instr} {poll k : Nat} {l l' : Locals} {addr : Byte} {m : AccessMode} {s : State} {o : DriveResult}
  {status data : Byte} {ds : List DriveAnswer} {es : List ExchangeAnswer}
  (hz : s.env.resetLine = false) (hp : s.phase = .busy i k l) (hl : l.point = .between)
  (ha : planOf i s.poll l = .transact poll l' addr m)
include hz hp hl ha

theorem run_transact_failedCsLow (hd : s.env.drives = .returns .err :: .returns o :: ds) (he : s.env.exchanges = es) :
    run 3 s = .next (afterBusFault s [] [.drive .low .err, .drive .high o] 2 0
      (if o = .ok then .high else .unknown) poll ds es) := by
  rw [run_succ_of_busy hz hp, advance_between hl, ha, act, beginTransact_err (driveAnswer_of_scripted hd),
    run_of_restore (by exact hz) rfl rfl (driveAnswer_of_scripted (a := .returns o) (ds := ds) (by simp [hd]))]
  simp [raise, finish, errorResponse, doDrive, setBusy, setPoll, afterBusFault, csAfter_high, hd, he]

theorem run_transact_failedFirstExchange (hd : s.env.drives = .returns .ok :: .returns o :: ds)
    (he : s.env.exchanges = .err :: es) :
    run 4 s = .next (afterBusFault s []
      [.drive .low .ok, .exchange (frameHigh (encodeFrame addr m)) none, .drive .high o] 2 1
      (if o = .ok then .high else .unknown) poll ds es) := by
  rw [run_of_startedTransact hz hp hl ha (driveAnswer_of_scripted hd),
    run_of_failedExchange (by exact hz) rfl (.inl rfl) (exchangeAnswer_of_scripted (by simpa using he))
      (driveAnswer_of_scripted (a := .returns o) (ds := ds) (by simp [hd]))]
  simp [raise, finish, errorResponse, doDrive, doExchange, nextByte, setBusy, setPoll, afterBusFault, csAfter_high, hd, he]

theorem run_transact_failedSecondExchange (hd : s.env.drives = .returns .ok :: .returns o :: ds)
    (he : s.env.exchanges = .ok status :: .err :: es) :
    run 5 s = .next (afterBusFault s []
      [.drive .low .ok, .exchange (frameHigh (encodeFrame addr m)) (some status),
        .exchange (frameLow (encodeFrame addr m)) none, .drive .high o] 2 2
      (if o = .ok then .high else .unknown) poll ds es) := by
  rw [run_of_startedTransact hz hp hl ha (driveAnswer_of_scripted hd),
    run_of_sentHigh (by exact hz) rfl rfl (exchangeAnswer_of_scripted (by simpa using he)),
    run_of_failedExchange (by exact hz) rfl (.inr rfl) (exchangeAnswer_of_scripted (es := es) (by simp [he]))
      (driveAnswer_of_scripted (a := .returns o) (ds := ds) (by simp [hd]))]
  simp [raise, finish, errorResponse, doDrive, doExchange, nextByte, setBusy, setPoll, afterBusFault, csAfter_high, hd, he]

theorem run_transact_failedCsHigh (hd : s.env.drives = .returns .ok :: .returns .err :: ds)
    (he : s.env.exchanges = .ok status :: .ok data :: es) :
    run 5 s = .next (afterBusFault s []
      [.drive .low .ok, .exchange (frameHigh (encodeFrame addr m)) (some status),
        .exchange (frameLow (encodeFrame addr m)) (some data), .drive .high .err] 2 2 .unknown poll ds es) := by
  rw [run_of_startedTransact hz hp hl ha (driveAnswer_of_scripted hd),
    run_of_sentHigh (by exact hz) rfl rfl (exchangeAnswer_of_scripted (by simpa using he)),
    run_of_sentLow (data := data) (by exact hz) rfl rfl (exchangeAnswer_of_scripted (es := es) (by simp [he])),
    run_of_failedCsHigh (by exact hz) rfl rfl (driveAnswer_of_scripted (ds := ds) (by simp [hd]))]
  simp [raise, finish, errorResponse, doDrive, doExchange, setBusy, setPoll, afterBusFault, hd, he]

end

/-- Settles O22: EXEC starts its one transaction from the accepted command, and each row of R105 may follow. -/
theorem busFaultTraces : Obligations.BusFaultTraces := by
  intro addr m s o status data ds es hreg ha
  have hz : (accept (execOf addr m) s).env.resetLine = false := ha.2.2
  have hplan : planOf (execOf addr m) s.poll Locals.fresh = .transact s.poll Locals.fresh addr m := by
    rw [planOf_execOf]; rfl
  obtain ⟨hhigh, hlow⟩ := frame_bytes hreg m
  rw [← hhigh, ← hlow]
  exact ⟨fun hd he => exec_run_of_accept ha (run_transact_failedCsLow hz rfl rfl hplan hd he),
    fun hd he => exec_run_of_accept ha (run_transact_failedFirstExchange hz rfl rfl hplan hd he),
    fun hd he => exec_run_of_accept ha (run_transact_failedSecondExchange hz rfl rfl hplan hd he),
    fun hd he => exec_run_of_accept ha (run_transact_failedCsHigh hz rfl rfl hplan hd he)⟩

end Sys2Proof.Machine
end

section
/-! SUPPORT. Proofs about the commands of one register (41_config_ops.md R110): each runs the shared transaction at the
register it names, and its response is made of the two bytes received. -/

namespace Sys2Proof.Machine

open Sys2Proof

/-! ### The commands that read one register: O25 -/

/-- A command that reads one register sends the register's address and 0x00, and answers with the data byte. -/
theorem completes_of_read {i : Instr} (reg : ChipReg) (status data : Byte)
    (hp : ∀ p l, planOf i p l = oneTransaction (regAddr reg) .read readResponse p l) :
    CompletesWith i [⟨regAddr reg, 0x00, status, data⟩] (dataResponse (data.setWidth 32)) :=
  completes_of_oneTransaction status data hp (frameHigh_encode_read (isRegAddr_regAddr reg)) (frameLow_encode_read _)

/-- Settles O25: the three commands differ in the register only. -/
theorem readCommandsComplete : Obligations.ReadCommandsComplete := fun status data =>
  ⟨completes_of_read .scratch status data fun _ _ => rfl,
    completes_of_read .pincfg1 status data fun _ _ => rfl,
    completes_of_read .pincfg2 status data fun _ _ => rfl⟩

/-! ### The commands that write one register: O26, O32 -/

/-- The byte that SET_SYSCLK_LED writes to PINCFG1 is its operand, zero-extended: 0x01 for ON, 0x00 for OFF (R63, R120). -/
theorem planOf_setSysclkLed (on : BitVec 1) (p : Nat) (l : Locals) :
    planOf (.setSysclkLed on) p l = oneTransaction (regAddr .pincfg1) (.write (on.setWidth 8)) writeResponse p l := by
  have hbyte : (if on = 1 then 0x01 else 0x00 : Byte) = on.setWidth 8 := by revert on; decide
  rw [← hbyte]
  rfl

/-- Settles O26: each command is one write of its byte, and the response does not depend on the bytes received. -/
theorem writeCommandsComplete : Obligations.WriteCommandsComplete := fun status data =>
  ⟨fun _ => completes_of_write (addr := regAddr .scratch) status data fun _ _ => rfl,
    completes_of_write (addr := regAddr .txpwr) status data fun _ _ => rfl,
    completes_of_write status data (planOf_setSysclkLed 1),
    completes_of_write status data (planOf_setSysclkLed 0)⟩

/-- Settles O32: a write that answers with the status byte, where the other writes answer OK alone. -/
theorem txByteCompletes : Obligations.TxByteCompletes := fun _ status data =>
  completes_of_oneTransaction (addr := regAddr .fifodata) (res := fun status _ => statusResponse status 0) status data
    (fun _ _ => rfl) (frameHigh_encode_write _ _) (frameLow_encode_write _ _)

end Sys2Proof.Machine
end

section
/-! SUPPORT. Proofs about the quantizer and the commands that move its words (42_quantization.md): the bounds of the
quantizer, the two words made of it, a command of several transactions in general, and the three such commands. -/

namespace Sys2Proof.Machine

open Sys2Proof

/-! ### The quantizer (R128, R131): O36 -/

/-- x = v · 2^24 / CRYSTAL_HZ, the exact value that the quantizer approximates (R128). -/
def exactWord (v : Nat) : ℚ := (v : ℚ) * 2 ^ 24 / 16000000

theorem exactWord_eq (v : Nat) : exactWord v = 32768 * v / 31250 := by unfold exactWord; ring

/-- R131 (d): the quantizer exceeds the exact value by more than one half and less than three halves. That
no bound is met is a matter of parity: 32768 · v is even and 15625 odd. -/
theorem exactWord_lt_quantize (v : Nat) :
    exactWord v + 1 / 2 < quantize v ∧ (quantize v : ℚ) < exactWord v + 3 / 2 := by
  have hlow : 32768 * v + 15625 < 31250 * quantize v := by rw [quantize_eq]; omega
  have hhigh : 31250 * quantize v < 32768 * v + 46875 := by rw [quantize_eq]; omega
  have hlow' : (32768 * v + 15625 : ℚ) < 31250 * quantize v := by exact_mod_cast hlow
  have hhigh' : (31250 * quantize v : ℚ) < 32768 * v + 46875 := by exact_mod_cast hhigh
  rw [exactWord_eq]
  constructor <;> linarith

theorem one_le_quantize (v : Nat) : 1 ≤ quantize v := by rw [quantize_eq]; omega

theorem quantize_mono {v v' : Nat} (h : v ≤ v') : quantize v ≤ quantize v' := by
  rw [quantize_eq, quantize_eq]; omega

theorem quantize_eq_ceil (v : Nat) : (quantize v : ℤ) = ⌈exactWord v + 1 / 2⌉ := by
  obtain ⟨hlow, hhigh⟩ := exactWord_lt_quantize v
  refine (Int.ceil_eq_iff.2 ⟨?_, ?_⟩).symm
  · push_cast; linarith
  · push_cast; linarith

/-- R128's table: the distance of the quantizer from the floor, by the fractional part. -/
theorem quantize_of_fract (v : Nat) :
    (Int.fract (exactWord v) ≤ 1 / 2 → (quantize v : ℤ) = ⌊exactWord v⌋ + 1) ∧
    (1 / 2 < Int.fract (exactWord v) → (quantize v : ℤ) = ⌊exactWord v⌋ + 2) := by
  obtain ⟨hlow, hhigh⟩ := exactWord_lt_quantize v
  have hsum := Int.floor_add_fract (exactWord v)
  have hnonneg := Int.fract_nonneg (exactWord v)
  have hlt := Int.fract_lt_one (exactWord v)
  constructor
  · intro hf
    have h0 : ⌊exactWord v⌋ < (quantize v : ℤ) := by qify; linarith
    have h1 : (quantize v : ℤ) < ⌊exactWord v⌋ + 2 := by qify; linarith
    omega
  · intro hf
    have h0 : ⌊exactWord v⌋ + 1 < (quantize v : ℤ) := by qify; linarith
    have h1 : (quantize v : ℤ) < ⌊exactWord v⌋ + 3 := by qify; linarith
    omega

/-- R131 (e): a fractional part of one half would leave no integer strictly between the bounds. -/
theorem fract_exactWord_ne_half (v : Nat) : Int.fract (exactWord v) ≠ 1 / 2 := by
  intro hf
  obtain ⟨hlow, hhigh⟩ := exactWord_lt_quantize v
  have hsum := Int.floor_add_fract (exactWord v)
  have h0 : ⌊exactWord v⌋ + 1 < (quantize v : ℤ) := by qify; linarith
  have h1 : (quantize v : ℤ) < ⌊exactWord v⌋ + 2 := by qify; linarith
  omega

/-- x = 16384 · v / 15625 in lowest terms. -/
theorem fract_exactWord_eq_zero_iff (v : Nat) : Int.fract (exactWord v) = 0 ↔ 15625 ∣ v := by
  rw [Int.fract_eq_zero_iff, exactWord_eq]
  constructor
  · rintro ⟨z, hz⟩
    have h : (16384 * v : ℚ) = 15625 * z := by rw [hz]; ring
    have h' : (16384 * v : ℤ) = 15625 * z := by exact_mod_cast h
    omega
  · rintro ⟨n, rfl⟩
    exact ⟨16384 * n, by push_cast; ring⟩

/-- Settles O36, by the bounds of R131 (d), which leave room for one integer. -/
theorem quantizeIsHalfPlusCeiling : Obligations.QuantizeIsHalfPlusCeiling := fun v =>
  ⟨quantize_eq_ceil v, rfl, quantize_eq v, (quantize_of_fract v).1, (quantize_of_fract v).2, one_le_quantize v,
    fun hv => by omega⟩

/-! ### The words (R129 to R131): O37 to O39 -/

/-- The last frequency whose word fits 32 bits. -/
theorem quantize_lt_two_pow_32_iff {v : Nat} : quantize v < 2 ^ 32 ↔ v ≤ 4095999998 := by rw [quantize_eq]; omega

/-- The last bitrate whose word fits 24 bits. -/
theorem quantize_lt_two_pow_24_iff {v : Nat} : quantize v < 2 ^ 24 ↔ v ≤ 15999998 := by rw [quantize_eq]; omega

/-- A word wide enough for the quantized value is that value. -/
theorem toNat_ofNat_quantize {n v : Nat} (h : quantize v < 2 ^ n) : (BitVec.ofNat n (quantize v)).toNat = quantize v := by
  rw [BitVec.toNat_ofNat, Nat.mod_eq_of_lt h]

/-- Where the larger word loses nothing, the words are in order and none is 0. -/
theorem ofNat_quantize_mono {n v v' : Nat} (h : v ≤ v') (hfit : quantize v' < 2 ^ n) :
    (BitVec.ofNat n (quantize v)).toNat ≤ (BitVec.ofNat n (quantize v')).toNat ∧ BitVec.ofNat n (quantize v) ≠ 0 := by
  have hle := quantize_mono h
  have hv : (BitVec.ofNat n (quantize v)).toNat = quantize v := toNat_ofNat_quantize (hle.trans_lt hfit)
  refine ⟨?_, fun h0 => ?_⟩
  · rwa [hv, toNat_ofNat_quantize hfit]
  · have hpos := one_le_quantize v
    rw [← hv, h0] at hpos
    simp at hpos

/-- Settles O37: the words keep the order of the quantizer where they keep its value. -/
theorem quantizeProperties : Obligations.QuantizeProperties := by
  refine ⟨fun _ _ => quantize_mono, rfl, fun v => ?exact, fun f f' h hf' => ?freq, fun r r' h hr' => ?rate⟩
  case exact =>
    obtain ⟨hlow, hhigh⟩ := exactWord_lt_quantize v
    change exactWord v - quantize v < -1 / 2 ∧ -3 / 2 < exactWord v - quantize v ∧ _
    exact ⟨by linarith, by linarith, fract_exactWord_ne_half v, fract_exactWord_eq_zero_iff v⟩
  case freq => exact ofNat_quantize_mono h (quantize_lt_two_pow_32_iff.2 hf')
  case rate => exact ofNat_quantize_mono h (quantize_lt_two_pow_24_iff.2 hr')

/-- Settles O38, by the last frequency whose word fits. -/
theorem frequencyWordRange : Obligations.FrequencyWordRange :=
  ⟨fun _ => ⟨BitVec.toNat_ofNat .., fun h => toNat_ofNat_quantize (quantize_lt_two_pow_32_iff.2 h),
    fun h => not_lt.1 (mt quantize_lt_two_pow_32_iff.1 (by omega))⟩, rfl, rfl⟩

/-- Settles O39, by the last bitrate whose word fits. -/
theorem bitrateWordRange : Obligations.BitrateWordRange :=
  ⟨fun _ => ⟨BitVec.toNat_ofNat .., fun h => toNat_ofNat_quantize (quantize_lt_two_pow_24_iff.2 h),
    fun h => not_lt.1 (mt quantize_lt_two_pow_24_iff.1 (by omega))⟩, rfl⟩

/-! ### Commands of several transactions -/

/-- `Performs i p l txs q l'`: from the poll index `p` and the locals `l`, where no transaction is in flight, the pseudocode
of `i` starts the transactions `txs` one after the other; they meet no failure, and leave `q` and `l'`. -/
inductive Performs (i : Instr) : Nat → Locals → List Txn → Nat → Locals → Prop where
  | nil {p : Nat} {l : Locals} (hl : l.point = .between) : Performs i p l [] p l
  | cons {p p' q : Nat} {l l₁ l' : Locals} {addr : Byte} {m : AccessMode} {t : Txn} {txs : List Txn}
      (hl : l.point = .between) (ha : planOf i p l = .transact p' l₁ addr m)
      (hh : frameHigh (encodeFrame addr m) = t.sentHigh) (hlo : frameLow (encodeFrame addr m) = t.sentLow)
      (h : Performs i p'
        { l₁ with
          point := .between, txns := l₁.txns + 1, frame := encodeFrame addr m, status := t.status, data := t.data } txs q l') :
      Performs i p l (t :: txs) q l'

/-- The state between two transactions of the command `i` that has performed `txs` since `s`. -/
def betweenTxns (i : Instr) (k : Nat) (s : State) (txs : List Txn) (poll : Nat) (l : Locals) (ds : List DriveAnswer)
    (es : List ExchangeAnswer) : State :=
  { cs := if txs = [] then s.cs else .high
    phase := .busy i (k + 4 * txs.length) l
    poll := poll
    resp := s.resp
    env := { s.env with
      drives := ds
      exchanges := es
      driveCalls := s.env.driveCalls + 2 * txs.length
      exchangeCalls := s.env.exchangeCalls + 2 * txs.length
      trace := s.env.trace ++ txs.flatMap txnEvents } }

theorem okDrives_add (m n : Nat) : okDrives (m + n) = okDrives m ++ okDrives n := List.replicate_add m n _

section
variable {i : Instr} {p q k : Nat} {l l' : Locals} {s : State} {txs : List Txn} {ds : List DriveAnswer}
  {es : List ExchangeAnswer}

/-- A write of `v` to `addr`, as the next transaction. -/
theorem Performs.write {p' : Nat} {l₁ : Locals} {addr v status data : Byte} (hl : l.point = .between)
    (ha : planOf i p l = .transact p' l₁ addr (.write v))
    (h : Performs i p'
      { l₁ with point := .between, txns := l₁.txns + 1, frame := encodeFrame addr (.write v), status, data } txs q l') :
    Performs i p l (⟨0x80#8 ||| addr, v, status, data⟩ :: txs) q l' :=
  .cons hl ha (frameHigh_encode_write addr v) (frameLow_encode_write addr v) h

/-- A read of a register, as the next transaction. -/
theorem Performs.read {p' : Nat} {l₁ : Locals} {reg : ChipReg} {status data : Byte} (hl : l.point = .between)
    (ha : planOf i p l = .transact p' l₁ (regAddr reg) .read)
    (h : Performs i p'
      { l₁ with point := .between, txns := l₁.txns + 1, frame := encodeFrame (regAddr reg) .read, status, data } txs q l') :
    Performs i p l (⟨regAddr reg, 0, status, data⟩ :: txs) q l' :=
  .cons hl ha (frameHigh_encode_read (isRegAddr_regAddr reg)) (frameLow_encode_read _) h

theorem Performs.point_eq (h : Performs i p l txs q l') : l'.point = .between := by
  induction h with
  | nil hl => exact hl
  | cons _ _ _ _ _ ih => exact ih

theorem betweenTxns_nil (hp : s.phase = .busy i k l) (ha : Answers s [] ds es) :
    betweenTxns i k s [] s.poll l ds es = s := by
  obtain ⟨hd, he⟩ := ha
  have hd : s.env.drives = ds := hd
  have he : s.env.exchanges = es := he
  subst hd he
  simp [betweenTxns, ← hp]

/-- The first transaction, then the others. -/
theorem betweenTxns_cons {p : Nat} {l₁ : Locals} {f : Frame} {t : Txn} (hh : frameHigh f = t.sentHigh)
    (hlo : frameLow f = t.sentLow) :
    betweenTxns i k s (t :: txs) q l' ds es =
      betweenTxns i (k + 4) (afterTransact i p k l₁ f t.status t.data s) txs q l' ds es := by
  simp [betweenTxns, afterTransact, hh, hlo, Nat.mul_add, Nat.add_assoc, Nat.add_comm]

/-- Four steps for each transaction, the collaborators answering Ok. -/
theorem Performs.run_add (h : Performs i s.poll l txs q l') (hz : s.env.resetLine = false) (hp : s.phase = .busy i k l)
    (ha : Answers s txs ds es) (n : Nat) :
    run (4 * txs.length + n) s = run n (betweenTxns i k s txs q l' ds es) := by
  generalize hpoll : s.poll = p at h
  induction h generalizing s k with
  | nil hl =>
    rw [← hpoll, betweenTxns_nil hp ha, List.length_nil, Nat.mul_zero, Nat.zero_add]
  | @cons p p' q l l₁ l' addr m t txs hl hplan hh hlo h ih =>
    obtain ⟨hd, he⟩ := ha
    have hd : s.env.drives = .returns .ok :: .returns .ok :: (okDrives (2 * txs.length) ++ ds) := hd
    have he : s.env.exchanges = .ok t.status :: .ok t.data :: (okExchanges txs ++ es) := he
    rw [← hpoll] at hplan
    have hrest : Answers (afterTransact i p' k l₁ (encodeFrame addr m) t.status t.data s) txs ds es :=
      ⟨by simp [afterTransact, hd], by simp [afterTransact, he]⟩
    calc run (4 * (t :: txs).length + n) s
        = run (4 + (4 * txs.length + n)) s := by rw [List.length_cons]; congr 1; omega
      _ = run (4 * txs.length + n) (afterTransact i p' k l₁ (encodeFrame addr m) t.status t.data s) :=
          run_transact_add hz hp hl hplan hd he
      _ = _ := by rw [ih (by exact hz) rfl hrest rfl, ← betweenTxns_cons hh hlo]

/-- The command ends with a response after its transactions, of which there is at least one. -/
theorem Performs.run_respond {r : Response} (h : Performs i s.poll l txs q l') (hne : txs ≠ [])
    (hr : planOf i q l' = .respond q r) (hz : s.env.resetLine = false) (hp : s.phase = .busy i k l)
    (ha : Answers s txs ds es) : run (4 * txs.length + 1) s = .next (afterCommand s txs q r ds es) := by
  rw [h.run_add hz hp ha, run_succ_of_busy (by exact hz) rfl, advance_between h.point_eq]
  simp [betweenTxns, hr, hne, act, finish, setPoll, afterCommand]

/-- The transaction that the pseudocode starts next fails at its first exchange (40_framer.md R105): the restore drive,
BusFault, and no other event. -/
theorem Performs.run_failedFirstExchange {poll : Nat} {l₁ : Locals} {addr : Byte} {m : AccessMode} {o : DriveResult}
    (h : Performs i s.poll l txs q l') (hplan : planOf i q l' = .transact poll l₁ addr m) (hz : s.env.resetLine = false)
    (hp : s.phase = .busy i k l) (ha : Answers s txs (.returns .ok :: .returns o :: ds) (.err :: es)) :
    run (4 * txs.length + 4) s = .next (afterBusFault s txs
      [.drive .low .ok, .exchange (frameHigh (encodeFrame addr m)) none, .drive .high o] 2 1
      (if o = .ok then .high else .unknown) poll ds es) := by
  rw [h.run_add hz hp ha, run_transact_failedFirstExchange (by exact hz) rfl h.point_eq hplan rfl rfl]
  simp [betweenTxns, afterBusFault]

end

/-- A command whose pseudocode, from its fresh locals, performs transactions and then answers. -/
theorem completes_of_performs {i : Instr} {txs : List Txn} {l : Locals} {r : Response} (hne : txs ≠ [])
    (h : ∀ p, Performs i p Locals.fresh txs p l) (hr : ∀ p, planOf i p l = .respond p r) : CompletesWith i txs r :=
  fun s _ _ hs ha => exec_run_of_accept hs ((h s.poll).run_respond (s := accept i s) hne (hr _) hs.2.2 rfl ha)

section
variable {i : Instr} {txs : List Txn} {r : Response} {s : State} {w : CommandWord} {ws : List CommandWord} {n : Nat}
  {ds : List DriveAnswer} {es : List ExchangeAnswer} (h : CompletesWith i txs r) (hlen : txs.length = n) (hs : Accepting s)
  (hc : s.env.cmds = w :: ws) (hd : decodeCommand w = .ok i) (ha : Answers s txs ds es)
include h hlen hs hc hd ha

/-- From the command port to the response: the word is taken in the step of the first event. -/
theorem run_of_command :
    run (4 * n + 1) s = .next (afterCommand (dropCommand ws s) txs s.poll r ds es) := by
  obtain ⟨s1, hexec, hrun⟩ := h (dropCommand ws s) ds es hs ha
  rw [run_succ_of_step ((step_of_command hs hc hd).trans hexec), ← hlen, hrun]
  rfl

/-- From the command port to the response taken, in one step more. -/
theorem run_of_command_taken (hh : s.env.hostReady = true) :
    run (4 * n + 1 + 1) s = .next (takeResponse r (afterCommand (dropCommand ws s) txs s.poll r ds es)) := by
  rw [run_add (run_of_command h hlen hs hc hd ha)]
  exact run_succ_of_step ((step_of_held (r := r) (by exact hs.2.2) rfl rfl).trans (congrArg _ (if_pos hh)))

end

/-! ### The bytes of a word (30_encoding.md R64, R133) -/

/-- The low bytes of a zero-extended word are the word's own. -/
theorem wordByte_setWidth (w : BitVec 24) {n : Nat} (h : n < 3) : wordByte (w.setWidth 32) n = w.extractLsb' (8 * n) 8 :=
  BitVec.extractLsb'_setWidth_of_le (by omega)

/-- The bytes above the n-th, followed by it. -/
theorem shiftRight_append_wordByte (w : BitVec 32) (n : Nat) :
    (w >>> (8 * (n + 1)) <<< 8) ||| (wordByte w n).setWidth 32 = w >>> (8 * n) := by
  apply BitVec.eq_of_getLsbD_eq
  intro j hj
  by_cases h : j < 8
  · simp [wordByte, h, hj]
  · simp [wordByte, h, hj, show 8 * (n + 1) + (j - 8) = 8 * n + j by omega]

/-- R133, the round trip: a word is its four bytes, most significant first. -/
theorem assemble_wordBytes (w : BitVec 32) : assemble [wordByte w 3, wordByte w 2, wordByte w 1, wordByte w 0] = w := by
  have hnext (bs : List Byte) (n : Nat) (h : assemble bs = w >>> (8 * (n + 1))) :
      assemble (bs ++ [wordByte w n]) = w >>> (8 * n) := by
    rw [assemble_append, h, shiftRight_append_wordByte]
  have hnone : assemble [] = w >>> (8 * (3 + 1)) := (BitVec.ushiftRight_eq_zero le_rfl).symm
  simpa using hnext _ 0 (hnext _ 1 (hnext _ 2 (hnext _ 3 hnone)))

theorem assemble_four (b3 b2 b1 b0 : Byte) : assemble [b3, b2, b1, b0] =
    (b3.setWidth 32 <<< 24) ||| (b2.setWidth 32 <<< 16) ||| (b1.setWidth 32 <<< 8) ||| b0.setWidth 32 := by
  simp [assemble, BitVec.shiftLeft_or_distrib, ← BitVec.shiftLeft_add]

/-! ### SET_FREQ, GET_FREQ and SET_TXRATE (R132 to R134): O40 to O44 -/

/-- Transactions that send the pairs of bytes `sent` and receive the pairs `received`, as far as both go. -/
def txnsOf (sent received : List (Byte × Byte)) : List Txn :=
  (sent.zip received).map fun p => ⟨p.1.1, p.1.2, p.2.1, p.2.2⟩

theorem txnsOf_length {sent received : List (Byte × Byte)} (h : received.length ≤ sent.length) :
    (txnsOf sent received).length = received.length := by simpa [txnsOf] using h

theorem okExchanges_txnsOf {sent received : List (Byte × Byte)} (h : received.length ≤ sent.length) :
    okExchanges (txnsOf sent received) = received.flatMap fun p => [.ok p.1, .ok p.2] := by
  induction received generalizing sent with
  | nil => simp [txnsOf]
  | cons r rs ih =>
    cases sent with
    | nil => simp at h
    | cons b bs => simpa [txnsOf] using ih (sent := bs) (by simpa using h)

/-- What SET_FREQ sends for the word `w` (R132). -/
def freqWrites (w : BitVec 32) : List (Byte × Byte) :=
  [(0xA0, wordByte w 3), (0xA1, wordByte w 2), (0xA2, wordByte w 1), (0xA3, wordByte w 0)]

/-- What GET_FREQ sends (R133). -/
def freqReads : List (Byte × Byte) := [(0x20, 0), (0x21, 0), (0x22, 0), (0x23, 0)]

section
variable {received : List (Byte × Byte)}

theorem setFreq_completes (val : BitVec 32) (h : received.length = 4) :
    CompletesWith (.setFreq val) (txnsOf (freqWrites (freqWord val)) received) okResponse := by
  obtain ⟨r3, r2, r1, r0, rfl⟩ := List.length_eq_four.1 h
  exact completes_of_performs (List.cons_ne_nil _ _)
    (fun _ => .write (addr := 0x20) rfl rfl <| .write (addr := 0x21) rfl rfl <| .write (addr := 0x22) rfl rfl <|
      .write (addr := 0x23) rfl rfl <| .nil rfl)
    fun _ => rfl

theorem getFreq_completes (h : received.length = 4) :
    CompletesWith .getFreq (txnsOf freqReads received) (dataResponse (assemble (received.map Prod.snd))) := by
  obtain ⟨r3, r2, r1, r0, rfl⟩ := List.length_eq_four.1 h
  exact completes_of_performs (List.cons_ne_nil _ _)
    (fun _ => .read (reg := .freq3) rfl rfl <| .read (reg := .freq2) rfl rfl <| .read (reg := .freq1) rfl rfl <|
      .read (reg := .freq0) rfl rfl <| .nil rfl)
    fun _ => rfl

/-- After fewer than four of its writes SET_FREQ stands where it starts the next one. -/
theorem setFreq_performs (val : BitVec 32) (p : Nat) {n : Nat} (hn : n < 4) (h : received.length = n) :
    ∃ l l₁ v, Performs (.setFreq val) p Locals.fresh (txnsOf (freqWrites (freqWord val)) received) p l ∧
      planOf (.setFreq val) p l = .transact p l₁ (0x20#8 + BitVec.ofNat 8 n) (.write v) := by
  match n, received, h with
  | 0, [], _ => exact ⟨_, _, _, .nil rfl, rfl⟩
  | 1, [_], _ => exact ⟨_, _, _, .write (addr := 0x20) rfl rfl <| .nil rfl, rfl⟩
  | 2, [_, _], _ =>
    exact ⟨_, _, _, .write (addr := 0x20) rfl rfl <| .write (addr := 0x21) rfl rfl <| .nil rfl, rfl⟩
  | 3, [_, _, _], _ =>
    exact ⟨_, _, _, .write (addr := 0x20) rfl rfl <| .write (addr := 0x21) rfl rfl <|
      .write (addr := 0x22) rfl rfl <| .nil rfl, rfl⟩

end

/-- Settles O40, by the four writes in the pseudocode's order. -/
theorem setFreqCompletes : Obligations.SetFreqCompletes := fun val s3 d3 s2 d2 s1 d1 s0 d0 =>
  setFreq_completes (received := [(s3, d3), (s2, d2), (s1, d1), (s0, d0)]) val rfl

/-- Settles O41, by the four reads and the assembled word written out. -/
theorem getFreqCompletes : Obligations.GetFreqCompletes := by
  intro s3 b3 s2 b2 s1 b1 s0 b0
  rw [← assemble_four]
  exact getFreq_completes (received := [(s3, b3), (s2, b2), (s1, b1), (s0, b0)]) rfl

/-- Settles O42: the word written is the 24-bit word, zero-extended, and its bytes are the 24-bit word's. -/
theorem setTxrateCompletes : Obligations.SetTxrateCompletes := by
  intro val s2 d2 s1 d1 s0 d0
  let w : BitVec 32 := (rateWord val).setWidth 32
  have h : CompletesWith (.setTxrate val)
      [⟨0xB1, wordByte w 2, s2, d2⟩, ⟨0xB2, wordByte w 1, s1, d1⟩, ⟨0xB3, wordByte w 0, s0, d0⟩] okResponse :=
    completes_of_performs (List.cons_ne_nil _ _)
      (fun _ => .write (addr := 0x31) rfl rfl <| .write (addr := 0x32) rfl rfl <| .write (addr := 0x33) rfl rfl <|
        .nil rfl)
      fun _ => rfl
  rw [wordByte_setWidth _ (by decide), wordByte_setWidth _ (by decide), wordByte_setWidth _ (by decide)] at h
  exact h

/-- The write address byte of the frequency register number `n`. -/
theorem freqWrite_address {n : Nat} (h : n < 4) : 0x80#8 ||| (0x20#8 + BitVec.ofNat 8 n) = 0xA0#8 + BitVec.ofNat 8 n := by
  interval_cases n <;> rfl

/-- Settles O43, by the point at which SET_FREQ starts the write that fails. -/
theorem tornFrequencyWord : Obligations.TornFrequencyWord := by
  intro val s n rs o ds es hn hlen hs w sent txs hd he
  obtain ⟨l, l₁, v, hperf, hplan⟩ := setFreq_performs val s.poll hn hlen
  have htxs : (txnsOf (freqWrites (freqWord val)) rs).length = n :=
    (txnsOf_length (show rs.length ≤ 4 by omega)).trans hlen
  rw [← htxs] at hd
  have hrun := hperf.run_failedFirstExchange (s := accept (.setFreq val) s) hplan hs.2.2 rfl ⟨hd, he⟩
  rw [frameHigh_encode_write, freqWrite_address hn, htxs] at hrun
  exact exec_run_of_accept hs hrun

theorem decodeCommand_setFreq (val : BitVec 32) : decodeCommand (0x06#8 ++ val) = .ok (.setFreq val) :=
  decodeOfEncode (.setFreq val) rfl

theorem decodeCommand_getFreq : decodeCommand 0x0700000000 = .ok .getFreq := decodeOfEncode .getFreq rfl

/-- Settles O44: the two commands from the port, the response taken between them, and the word reassembled. -/
theorem setFreqThenGetFreq : Obligations.SetFreqThenGetFreq := by
  intro val s ws wr rd ds es hs hready hcmds hwr hword hd he
  have hrd : rd.length = 4 := by simpa using congrArg List.length hword
  have hwlen := (txnsOf_length (sent := freqWrites (freqWord val)) hwr.le).trans hwr
  have hrlen := (txnsOf_length (sent := freqReads) hrd.le).trans hrd
  have hanswers : Answers s (txnsOf (freqWrites (freqWord val)) wr) (okDrives (2 * (txnsOf freqReads rd).length) ++ ds)
      (okExchanges (txnsOf freqReads rd) ++ es) := by
    rw [Answers, hwlen, hrlen, okExchanges_txnsOf hwr.le, okExchanges_txnsOf hrd.le, ← List.append_assoc,
      ← okDrives_add, ← List.append_assoc, ← List.flatMap_append]
    exact ⟨hd, he⟩
  have hset := run_of_command_taken (setFreq_completes val hwr) hwlen hs hcmds (decodeCommand_setFreq val) hanswers
    hready
  have hread : assemble (rd.map Prod.snd) = freqWord val := by rw [hword]; exact assemble_wordBytes _
  have hget := getFreq_completes hrd
  rw [hread] at hget
  exact ⟨_, (run_add (n := 17) hset).trans
    (run_of_command hget hrlen ⟨rfl, rfl, hs.2.2⟩ rfl decodeCommand_getFreq ⟨rfl, rfl⟩), rfl, rfl, rfl, rfl, rfl⟩

end Sys2Proof.Machine
end

section
/-! SUPPORT. Proofs about AUTORANGE (43_autoranging.md R140 to R148): the four rows of the transition after a poll, the busy
polls by induction, and the ways in which a command that has made them ends. -/

namespace Sys2Proof.Machine

open Sys2Proof

/-! ### Actions that end a command, with a response or an error -/

/-- The action ends the command: it leaves the poll index and the response given. -/
inductive Ends : Action → Nat → Response → Prop where
  | respond (poll : Nat) (r : Response) : Ends (.respond poll r) poll r
  | raise (poll : Nat) (c : Code) (v : BitVec 32) : Ends (.raise poll c v) poll (errorResponse c v)

theorem Ends.act_eq {a : Action} {poll : Nat} {r : Response} (h : Ends a poll r) (i : Instr) (k : Nat) (s : State) :
    act i k a s = finish r (setPoll poll s) := by
  cases h with
  | respond => rfl
  | raise => rfl

section
variable {i : Instr} {p q poll k : Nat} {l l' l'' : Locals} {s : State} {txs txs' : List Txn} {r : Response}
  {ds : List DriveAnswer} {es : List ExchangeAnswer}

theorem exec_of_ends (h : Ends (planOf i s.poll l) poll r) (hp : s.phase = .busy i k l) (hl : l.point = .between) :
    exec i s = .next (finish r (setPoll poll s)) := by
  rw [exec_of_busy hp, advance_between hl, h.act_eq]

/-- The command ends after its transactions, of which there is at least one, with a response or with an error. -/
theorem Performs.run_ends (h : Performs i s.poll l txs q l') (hne : txs ≠ []) (hend : Ends (planOf i q l') poll r)
    (hz : s.env.resetLine = false) (hp : s.phase = .busy i k l) (ha : Answers s txs ds es) :
    run (4 * txs.length + 1) s = .next (afterCommand s txs poll r ds es) := by
  rw [h.run_add hz hp ha, run_succ_of_busy (by exact hz) rfl, advance_between h.point_eq]
  simp [betweenTxns, hend.act_eq, hne, finish, setPoll, afterCommand]

/-- Transactions of a command, and those it performs from where they leave it. -/
theorem Performs.append (h : Performs i p l txs q l') (h' : Performs i q l' txs' poll l'') :
    Performs i p l (txs ++ txs') poll l'' := by
  induction h with
  | nil _ => exact h'
  | cons hl ha hh hlo _ ih => exact .cons hl ha hh hlo (ih h')

end

/-! ### The transition after a poll (R145): O45 -/

section
variable {p : Nat} {l : Locals}

/-- After the start write and a poll the pseudocode looks at the byte read. -/
theorem planOf_autorange_of_two_le (h : 2 ≤ l.txns) : planOf .autorange p l = afterPoll p l := by
  obtain ⟨n, hn⟩ := Nat.exists_eq_add_of_le' h
  simp only [planOf, autorangePlan, hn]

theorem afterPoll_of_busy (hb : l.data.getLsbD 4 = true) (hp : p + 1 < 3000) :
    afterPoll p l = .transact (p + 1) l (regAddr .pllranging) .read :=
  (if_pos hb).trans (if_pos hp)

theorem afterPoll_ends_of_bound (hb : l.data.getLsbD 4 = true) (hp : 3000 ≤ p + 1) :
    Ends (afterPoll p l) (p + 1) (errorResponse .autoRangingTimeout 0) := by
  have h : afterPoll p l = .raise (p + 1) .autoRangingTimeout 0 := (if_pos hb).trans (if_neg hp.not_gt)
  rw [h]
  exact .raise _ _ _

theorem afterPoll_ends_of_err (hb : l.data.getLsbD 4 = false) (he : l.data.getLsbD 5 = true) :
    Ends (afterPoll p l) p (errorResponse .autoRangingError 0) := by
  have h : afterPoll p l = .raise p .autoRangingError 0 := (if_neg (Bool.eq_false_iff.1 hb)).trans (if_pos he)
  rw [h]
  exact .raise _ _ _

theorem afterPoll_ends_of_complete (hb : l.data.getLsbD 4 = false) (he : l.data.getLsbD 5 = false) :
    Ends (afterPoll p l) p (dataResponse (BitVec.ofNat 32 p)) := by
  have h : afterPoll p l = .respond p (dataResponse (BitVec.ofNat 32 p)) :=
    (if_neg (Bool.eq_false_iff.1 hb)).trans (if_neg (Bool.eq_false_iff.1 he))
  rw [h]
  exact .respond _ _

end

/-- Settles O45, row by row: the first starts the next poll, the other three end the command. -/
theorem pollTransitions : Obligations.PollTransitions := by
  intro s k l hp hl ht
  have hplan : planOf .autorange s.poll l = afterPoll s.poll l := planOf_autorange_of_two_le ht
  refine ⟨fun hb hpoll hd => ?next, fun hb hpoll => ?timeout, fun hb he => ?error, fun hb he => ?complete⟩
  case next =>
    have hexec := exec_of_busy hp
    rw [advance_between hl, hplan, afterPoll_of_busy hb hpoll, act, beginTransact_ok hd] at hexec
    exact ⟨_, _, hexec, rfl, rfl, rfl, rfl, rfl, rfl⟩
  case timeout => exact exec_of_ends (hplan ▸ afterPoll_ends_of_bound hb hpoll) hp hl
  case error => exact exec_of_ends (hplan ▸ afterPoll_ends_of_err hb he) hp hl
  case complete => exact exec_of_ends (hplan ▸ afterPoll_ends_of_complete hb he) hp hl

/-! ### The busy polls (R141 to R143) -/

/-- The start write of AUTORANGE, which receives these bytes (R142). -/
def startTxn (received : Byte × Byte) : Txn := ⟨0xAD, 0x08, received.1, received.2⟩

/-- A poll, which receives these bytes (R141, R144). -/
def pollTxn (received : Byte × Byte) : Txn := ⟨0x2D, 0x00, received.1, received.2⟩

/-- From these values AUTORANGE, its start write and `n` polls done, starts the poll number `n`. -/
def StartsPoll (n p : Nat) (l : Locals) : Prop :=
  l.txns = n + 1 ∧ planOf .autorange p l = .transact n l (regAddr .pllranging) .read

section
variable {n p q : Nat} {l : Locals} {txs : List Txn}

/-- One more poll, after which the pseudocode looks at the byte read. -/
theorem Performs.poll (h : Performs .autorange p Locals.fresh txs q l) (hs : StartsPoll n q l) (v : Byte × Byte) :
    ∃ l', Performs .autorange p Locals.fresh (txs ++ [pollTxn v]) n l' ∧ l'.txns = n + 2 ∧ l'.data = v.2 ∧
      planOf .autorange n l' = afterPoll n l' := by
  obtain ⟨ht, hplan⟩ := hs
  have hread : Performs .autorange q l [pollTxn v] n _ := .read (reg := .pllranging) h.point_eq hplan (.nil rfl)
  have htwo : l.txns + 1 = n + 2 := by rw [ht]
  exact ⟨_, h.append hread, htwo, rfl, planOf_autorange_of_two_le (by simp only [htwo]; omega)⟩

/-- Fewer than 3000 busy polls leave AUTORANGE where it starts the next one. -/
theorem busyPolls_performs (p : Nat) (st : Byte × Byte) {polls : List (Byte × Byte)} (hlen : polls.length < 3000)
    (hbusy : ∀ v ∈ polls, v.2.getLsbD 4 = true) :
    ∃ q l, Performs .autorange p Locals.fresh (startTxn st :: polls.map pollTxn) q l ∧ StartsPoll polls.length q l := by
  induction polls using List.reverseRecOn with
  | nil => exact ⟨_, _, .write (addr := regAddr .pllranging) rfl rfl (.nil rfl), rfl, rfl⟩
  | append_singleton polls v ih =>
    rw [List.length_append, List.length_singleton] at hlen
    obtain ⟨q, l, h, hs⟩ := ih (by omega) fun w hw => hbusy w (List.mem_append_left _ hw)
    obtain ⟨l', h', ht, hv, hplan⟩ := h.poll hs v
    have hb : l'.data.getLsbD 4 = true := by rw [hv]; exact hbusy v (by simp)
    rw [List.map_append, List.length_append]
    exact ⟨_, l', h', ht, hplan.trans (afterPoll_of_busy hb hlen)⟩

end

/-! ### How AUTORANGE ends: O46 to O48 -/

section
variable {s : State} {st last : Byte × Byte} {polls : List (Byte × Byte)} {ds : List DriveAnswer}
  {es : List ExchangeAnswer} (hlen : polls.length < 3000) (hbusy : ∀ v ∈ polls, v.2.getLsbD 4 = true)
  (hs : Accepting s)
include hlen hbusy hs

/-- After busy polls, the poll whose byte the pseudocode answers by ending the command is the last transaction. -/
theorem autorange_run_of_ends {poll : Nat} {r : Response}
    (hend : ∀ l : Locals, l.data = last.2 → Ends (afterPoll polls.length l) poll r)
    (ha : Answers s (startTxn st :: (polls ++ [last]).map pollTxn) ds es) :
    ∃ s1, exec .autorange s = .next s1 ∧ run (4 * (startTxn st :: (polls ++ [last]).map pollTxn).length) s1 =
      .next (afterCommand s (startTxn st :: (polls ++ [last]).map pollTxn) poll r ds es) := by
  obtain ⟨q, l, h, hstarts⟩ := busyPolls_performs s.poll st hlen hbusy
  obtain ⟨l', h', -, hdata, hplan⟩ := h.poll hstarts last
  rw [List.cons_append, ← List.map_singleton, ← List.map_append] at h'
  exact exec_run_of_accept hs
    (h'.run_ends (s := accept .autorange s) (List.cons_ne_nil _ _) (hplan ▸ hend l' hdata) hs.2.2 rfl ha)

/-- After busy polls, a poll whose first exchange fails (R147). -/
theorem autorange_run_of_failedPoll {o : DriveResult}
    (ha : Answers s (startTxn st :: polls.map pollTxn) (.returns .ok :: .returns o :: ds) (.err :: es)) :
    ∃ s1, exec .autorange s = .next s1 ∧ run (4 * (startTxn st :: polls.map pollTxn).length + 3) s1 =
      .next (afterBusFault s (startTxn st :: polls.map pollTxn)
        [.drive .low .ok, .exchange (regAddr .pllranging) none, .drive .high o] 2 1
        (if o = .ok then .high else .unknown) polls.length ds es) := by
  obtain ⟨q, l, h, -, hplan⟩ := busyPolls_performs s.poll st hlen hbusy
  have hrun := h.run_failedFirstExchange (s := accept .autorange s) hplan hs.2.2 rfl ha
  rw [frameHigh_encode_read (isRegAddr_regAddr .pllranging)] at hrun
  exact exec_run_of_accept hs hrun

end

/-- Settles O46: the poll that is not busy ends the command, with either result. -/
theorem autorangeAfterBusyPolls : Obligations.AutorangeAfterBusyPolls := by
  intro s st polls last ds es hlen hbusy hlast hs txs ha
  refine autorange_run_of_ends hlen hbusy hs (fun l hl => ?_) ha
  rw [← hl] at hlast ⊢
  split
  · exact afterPoll_ends_of_err hlast ‹_›
  · exact afterPoll_ends_of_complete hlast (Bool.eq_false_iff.2 ‹_›)

/-- Settles O47: after 2999 busy polls the 3000th ends the command. -/
theorem autorangeTimesOutAfter3000Polls : Obligations.AutorangeTimesOutAfter3000Polls := by
  intro s st polls ds es hlen hbusy hs txs ha
  obtain ⟨init, last, rfl⟩ := polls.eq_nil_or_concat'.resolve_left (List.length_pos_iff.1 (by omega))
  rw [List.length_append, List.length_singleton] at hlen
  have hinit : init.length = 2999 := by omega
  refine ⟨by simp [txs, hinit], autorange_run_of_ends (by omega)
    (fun v hv => hbusy v (List.mem_append_left _ hv)) hs (fun l hl => ?_) ha⟩
  have hb : l.data.getLsbD 4 = true := by rw [hl]; exact hbusy last (by simp)
  have hend := afterPoll_ends_of_bound (p := init.length) hb hlen.ge
  rwa [hlen] at hend

/-- Settles O48, by the point at which AUTORANGE starts the poll that fails. -/
theorem autorangeBusFault : Obligations.AutorangeBusFault := by
  intro s st polls o ds es hlen hbusy hs txs hd he
  exact autorange_run_of_failedPoll hlen hbusy hs ⟨hd, he⟩

end Sys2Proof.Machine
end

section
/-! SUPPORT. Proofs about errors (60_exceptions.md R151 to R159): every step answers a next state, an unsupported selector
ends the command in its first step, and GET_MOD ends with a response or with the error that carries the byte read. -/

namespace Sys2Proof.Machine

open Sys2Proof

/-! ### No fault and no refusal: O10 -/

/-- Settles O10: one of the rules of the step fits every state, and each answers a next state. -/
theorem everyStepAnswersNext : Obligations.EveryStepAnswersNext := fun s =>
  (exists_stepped s).imp fun _ => Stepped.step_eq

/-! ### Unsupported selectors (R158): O30 -/

/-- A command that ends before any transaction ends in the step of its acceptance, and `resp` alone differs. -/
theorem exec_of_accept_ends {i : Instr} {s : State} {r : Response} (hs : Accepting s)
    (h : Ends (planOf i s.poll Locals.fresh) s.poll r) : exec i s = .next { s with resp := some r } := by
  obtain ⟨hp, hr, -⟩ := hs
  rw [exec_of_idle hp hr, advance_between rfl, accept_poll, h.act_eq, hp]
  rfl

/-- With any selector but 0 the check fails, wherever the command stands. -/
theorem selectorCommand_ends {sel : Byte} (h : sel ≠ 0) (addr : Byte) (p : Nat) (l : Locals) :
    Ends (selectorCommand addr sel p l) p (errorResponse .unsupportedMode 0) := by
  rw [selectorCommand, if_pos h]
  exact .raise _ _ _

/-- Settles O30: the three commands differ in the register only, which the failing check never reaches. -/
theorem unsupportedSelectorsRaise : Obligations.UnsupportedSelectorsRaise := by
  intro s sel i hs hsel hi
  have hends (addr : Byte) := selectorCommand_ends hsel addr s.poll Locals.fresh
  simp only [List.mem_cons, List.not_mem_nil, or_false] at hi
  obtain rfl | rfl | rfl := hi
  · exact exec_of_accept_ends hs (hends (regAddr .modulation))
  · exact exec_of_accept_ends hs (hends (regAddr .framing))
  · exact exec_of_accept_ends hs (hends (regAddr .encoding))

/-! ### GET_MOD (R117, R157): O31 -/

/-- A command whose pseudocode, from its fresh locals, performs transactions and then ends with a response or an error. -/
theorem completes_of_ends {i : Instr} {txs : List Txn} {l : Locals} {r : Response} (hne : txs ≠ [])
    (h : ∀ p, Performs i p Locals.fresh txs p l) (hend : ∀ p, Ends (planOf i p l) p r) : CompletesWith i txs r :=
  fun s _ _ hs ha => exec_run_of_accept hs ((h s.poll).run_ends (s := accept i s) hne (hend _) hs.2.2 rfl ha)

/-- After its read GET_MOD looks at the byte: 0x00 is on-off keying, any other is reported in the error's data. -/
theorem getModPlan_ends {l : Locals} (ht : l.txns ≠ 0) (p : Nat) :
    Ends (getModPlan p l) p
      (if l.data = 0x00 then dataResponse 0 else errorResponse .unrecognizedState (l.data.setWidth 32)) := by
  rw [getModPlan, if_neg ht]
  split
  · exact .respond _ _
  · exact .raise _ _ _

/-- Settles O31: one read of MODULATION, then either end. -/
theorem getModDecodes : Obligations.GetModDecodes := fun _ _ =>
  completes_of_ends (List.cons_ne_nil _ _) (fun _ => .read (reg := .modulation) rfl rfl (.nil rfl))
    (getModPlan_ends Nat.one_ne_zero)

end Sys2Proof.Machine
end

section
/-! SUPPORT. Proofs about reset and the hazards (70_reset_and_hazards.md R170 to R183): the pairing of the chip-select drives,
the order of events and responses, the exchange that never answers, and the end of every command whose calls return. -/

namespace Sys2Proof.Machine

open Sys2Proof

/-! ### The chip-select discipline (R174, R105): O51, O52 -/

@[simp] theorem traceFraming_append (tr : List Event) (e : Event) :
    traceFraming (tr ++ [e]) = framingStep (traceFraming tr) e := by
  simp [traceFraming]

/-- The framing that a point of a command expects, whichever command it is. -/
def pointFraming : Point → Framing
  | .between => .released
  | .sendHigh => .asserted 0
  | .sendLow => .asserted 1
  | .release => .asserted 2
  | .restore => .spoiled
  | .failed => .released

@[simp] theorem expectedFraming_busy (i : Instr) (k : Nat) (l : Locals) :
    expectedFraming (.busy i k l) = pointFraming l.point := by
  cases hl : l.point <;> simp only [expectedFraming, pointFraming, hl]

theorem pairingInv_idle {s : State} (hp : s.phase = .idle) :
    PairingInv s ↔ s.env.resetLine = false ∧ traceFraming s.env.trace = .released := by
  simp only [PairingInv, hp, expectedFraming]

theorem pairingInv_busy {i : Instr} {k : Nat} {l : Locals} {s : State} (hp : s.phase = .busy i k l) :
    PairingInv s ↔ s.env.resetLine = false ∧ traceFraming s.env.trace = pointFraming l.point := by
  simp only [PairingInv, hp, expectedFraming_busy]

/-- What the discipline asks of the effect of a step taken where the trace is framed as `f`: its event brings the framing to
that of the point it leaves, and a command ends released only. -/
def EffectFramed (f : Framing) : Effect → Prop
  | .wait => True
  | .drive d r l => framingStep f (.drive d r) = pointFraming l.point
  | .exchange out b l => framingStep f (.exchange out b) = pointFraming l.point
  | .finish _ => f = .released

/-- Between transactions the only event is a CsLow, and both its outcomes are framed. -/
theorem startEffect_framed (a : Action) (d : DriveAnswer) : EffectFramed .released (startEffect a d) := by
  cases a with
  | transact p l addr m =>
    rcases d with ⟨_ | _⟩ | _
    · rfl
    · rfl
    · trivial
  | respond p r => rfl
  | raise p c v => rfl

/-- Point by point, the event of a step is the one that the framing of the point admits (R104, R105). -/
theorem effectOf_framed (l : Locals) (a : Action) (d : DriveAnswer) (x : ExchangeAnswer) :
    EffectFramed (pointFraming l.point) (effectOf l a d x) := by
  cases hl : l.point with
  | between => simp only [effectOf, hl]; exact startEffect_framed a d
  | sendHigh =>
    simp only [effectOf, hl]
    rcases x with b | _ | _
    · rfl
    · rfl
    · trivial
  | sendLow =>
    simp only [effectOf, hl]
    rcases x with b | _ | _
    · rfl
    · rfl
    · trivial
  | release =>
    simp only [effectOf, hl]
    rcases d with ⟨_ | _⟩ | _
    · rfl
    · rfl
    · trivial
  | restore =>
    simp only [effectOf, hl]
    cases d with
    | returns r => rfl
    | never => trivial
  | failed => simp only [effectOf, hl]; rfl

section
variable {i : Instr} {k : Nat} {l : Locals} {s : State}

theorem Effect.apply_keeps_pairing {e : Effect} (hs : PairingInv s) (hp : s.phase = .busy i k l)
    (he : EffectFramed (pointFraming l.point) e) (poll : Nat) : PairingInv (setPoll poll (e.apply i k s)) := by
  obtain ⟨hz, hf⟩ := (pairingInv_busy hp).1 hs
  cases e with
  | wait => exact hs
  | drive d r l' =>
    refine (pairingInv_busy rfl).2 ⟨hz, ?_⟩
    calc traceFraming (s.env.trace ++ [.drive d r])
      _ = framingStep (pointFraming l.point) (.drive d r) := by rw [traceFraming_append, hf]
      _ = pointFraming l'.point := he
  | exchange out b l' =>
    refine (pairingInv_busy rfl).2 ⟨hz, ?_⟩
    calc traceFraming (s.env.trace ++ [.exchange out b])
      _ = framingStep (pointFraming l.point) (.exchange out b) := by rw [traceFraming_append, hf]
      _ = pointFraming l'.point := he
  | finish r => exact (pairingInv_idle rfl).2 ⟨hz, hf.trans he⟩

theorem advance_keeps_pairing (hs : PairingInv s) (hp : s.phase = .busy i k l) (plan : Nat → Locals → Action) :
    PairingInv (advance i plan k l s) := by
  rw [advance_eq_effect]
  exact Effect.apply_keeps_pairing hs hp (effectOf_framed ..) _

end

/-- Settles O51. -/
theorem resetHasPairing : Obligations.ResetHasPairing := (pairingInv_idle rfl).2 ⟨rfl, rfl⟩

/-- Settles O52, rule by rule of the step: only a command's own step writes the trace, and a fresh command starts, as an
Idle block stands, released. -/
theorem stepKeepsPairing : Obligations.StepKeepsPairing := by
  intro s t hs h
  cases step_eq_next_iff.1 h with
  | reset hz => exact nomatch hs.1.symm.trans hz
  | busy hz hp => exact advance_keeps_pairing hs hp _
  | @taken r hz hp hr hh => exact (pairingInv_idle (s := takeResponse r s) hp).2 ((pairingInv_idle hp).1 hs)
  | held hz hp hr hh => exact hs
  | noCommand ha hc => exact hs
  | @accepted w ws i ha hc hd =>
    have haccept : PairingInv (accept i (dropCommand ws s)) :=
      (pairingInv_busy (accept_phase _ i)).2 ((pairingInv_idle ha.1).1 hs)
    exact advance_keeps_pairing haccept rfl _
  | illegal ha hc hd => exact (pairingInv_idle rfl).2 ((pairingInv_idle ha.1).1 hs)

/-! ### Events and responses (R183): O14 -/

/-- A step of a command that performs an event leaves `resp` as it was. -/
theorem advance_resp_of_event {i : Instr} {plan : Nat → Locals → Action} {k : Nat} {l : Locals} {s : State}
    (h : (advance i plan k l s).env.trace ≠ s.env.trace) : (advance i plan k l s).resp = s.resp := by
  obtain hw | ⟨e, l', -, hr, -⟩ | ⟨r, -, -, henv, -⟩ := advance_cases i plan k l s
  · rw [hw]
  · exact hr
  · exact absurd (congrArg Env.trace henv) h

/-- Settles O14: an event belongs to a command in progress or just accepted, and neither holds a response. -/
theorem eventsComeBeforeTheResponse : Obligations.EventsComeBeforeTheResponse := by
  intro s t hs h hne
  cases step_eq_next_iff.1 h with
  | reset hz => exact absurd rfl hne
  | busy hz hp =>
    obtain ⟨-, hr, -, -⟩ := (blockInv_busy hp).1 hs
    exact ⟨hr, (advance_resp_of_event hne).trans hr⟩
  | taken hz hp hr hh => exact absurd rfl hne
  | held hz hp hr hh => exact absurd rfl hne
  | noCommand ha hc => exact absurd rfl hne
  | @accepted w ws i ha hc hd =>
    exact ⟨ha.2.1, (advance_resp_of_event (s := accept i (dropCommand ws s)) hne).trans ha.2.1⟩
  | illegal ha hc hd => exact absurd rfl hne

/-! ### An exchange that never answers (R178): O24 -/

/-- A state that its own step leaves as it is stays so however long the machine runs. -/
theorem run_of_step_self {s : State} (h : step s = .next s) (n : Nat) : run n s = .next s := by
  induction n with
  | zero => rfl
  | succ n ih => rw [run_succ_of_step h, ih]

section
variable {i : Instr} {k : Nat} {l : Locals} {s : State}

theorem advance_of_hangingExchange (plan : Nat → Locals → Action) (hl : l.point = .sendHigh ∨ l.point = .sendLow)
    (hx : exchangeAnswer s = .never) : advance i plan k l s = s := by
  rcases hl with hl | hl
  · rw [advance_sendHigh hl, exchangeHigh_never hx]
  · rw [advance_sendLow hl, exchangeLow_never hx]

/-- While bytes are exchanged the line is Low. -/
theorem PointInv.cs_low {n : Nat} {cs : CsLevel} (h : PointInv n k l cs)
    (hl : l.point = .sendHigh ∨ l.point = .sendLow) : cs = .low := by
  rcases hl with hl | hl
  · obtain ⟨-, -, hcs, -⟩ := (pointInv_sendHigh hl).1 h
    exact hcs
  · obtain ⟨-, -, hcs, -⟩ := (pointInv_sendLow hl).1 h
    exact hcs

end

/-- A reset input raised and released again leaves the environment as it was. -/
theorem Env.release_resetLine {e : Env} (h : e.resetLine = false) :
    { { e with resetLine := true } with resetLine := false } = e := by
  cases e
  cases h
  rfl

/-- Settles O24: the step that waits for the exchange is the identity, and a reset is served before it. -/
theorem hangingExchangeHangs : Obligations.HangingExchangeHangs := by
  intro s i k l hs hz hp hl hx
  obtain ⟨-, -, hpt, -⟩ := (blockInv_busy hp).1 hs
  have hstep : step s = .next s := by rw [step_of_busy hz hp, advance_of_hangingExchange _ hl hx]
  refine ⟨hpt.cs_low hl, run_of_step_self hstep, ?_⟩
  rw [step_of_reset rfl, blockReset, Env.release_resetLine hz]

/-! ### Every command ends (R182): O53 -/

/-- The bound on a command's remaining steps, by its locals, where `n` is the most transactions it performs. -/
def stepsAt (n : Nat) (l : Locals) : Nat :=
  match l.point with
  | .between => 4 * (n - l.txns) + 1
  | .sendHigh => 4 * (n - l.txns)
  | .sendLow => 4 * (n - l.txns) - 1
  | .release => 4 * (n - l.txns) - 2
  | .restore => 2
  | .failed => 1

/-- What a step that does not wait gives: the end of the command, or a smaller bound. -/
def EffectProgress (n m : Nat) : Effect → Prop
  | .wait => False
  | .drive _ _ l => stepsAt n l < m
  | .exchange _ _ l => stepsAt n l < m
  | .finish _ => True

/-- At least `n` answers of each kind are scripted, and every one of them comes. -/
def Supplied (n : Nat) (s : State) : Prop :=
  (n ≤ s.env.drives.length ∧ .never ∉ s.env.drives) ∧ n ≤ s.env.exchanges.length ∧ .never ∉ s.env.exchanges

section
variable {i : Instr} {k n : Nat} {l : Locals} {s : State}

theorem stepsLeft_busy (hp : s.phase = .busy i k l) : stepsLeft s = stepsAt (maxTxns i) l := by
  cases hl : l.point <;> simp only [stepsLeft, stepsAt, hp, hl]

theorem PointInv.txns_lt {cs : CsLevel} (h : PointInv n k l cs) (hl : l.point ≠ .between) : l.txns < n := by
  cases hq : l.point with
  | between => exact absurd hq hl
  | sendHigh => obtain ⟨-, hn, -⟩ := (pointInv_sendHigh hq).1 h; exact hn
  | sendLow => obtain ⟨-, hn, -⟩ := (pointInv_sendLow hq).1 h; exact hn
  | release => obtain ⟨-, hn, -⟩ := (pointInv_release hq).1 h; exact hn
  | restore => obtain ⟨-, -, hn, -⟩ := (pointInv_restore hq).1 h; exact hn
  | failed => obtain ⟨-, -, hn, -⟩ := (pointInv_failed hq).1 h; exact hn

/-- A Busy command has a step to take, and no more than four per transaction and one. -/
theorem PointInv.stepsAt_bounds {cs : CsLevel} (h : PointInv n k l cs) :
    0 < stepsAt n l ∧ stepsAt n l ≤ 4 * n + 1 := by
  cases hl : l.point with
  | between => simp only [stepsAt, hl]; omega
  | _ =>
    have hn : l.txns < n := h.txns_lt (by simp [hl])
    simp only [stepsAt, hl]
    omega

/-- Between transactions: a transaction the command may still start, or the end. -/
theorem startEffect_progress {a : Action} {d : DriveAnswer} (hl : l.point = .between) (ha : ActionInv i l a)
    (hd : d ≠ .never) : EffectProgress (maxTxns i) (stepsAt (maxTxns i) l) (startEffect a d) := by
  cases a with
  | transact p l' addr m =>
    obtain ⟨-, hn, ht, -⟩ := ha
    rcases d with ⟨_ | _⟩ | _
    · simp only [startEffect, EffectProgress, stepsAt, hl]; omega
    · simp only [startEffect, EffectProgress, stepsAt, hl]; omega
    · exact absurd rfl hd
  | respond p r => trivial
  | raise p c v => trivial

/-- Inside a transaction: the next of its events, or the way out after a failure, which is shorter. -/
theorem inFlightEffect_progress {d : DriveAnswer} {x : ExchangeAnswer} (hl : l.point ≠ .between) (hn : l.txns < n)
    (hd : d ≠ .never) (hx : x ≠ .never) (a : Action) : EffectProgress n (stepsAt n l) (effectOf l a d x) := by
  cases hq : l.point with
  | between => exact absurd hq hl
  | sendHigh =>
    rcases x with b | _ | _
    · simp only [effectOf, EffectProgress, stepsAt, hq]; omega
    · simp only [effectOf, EffectProgress, stepsAt, hq]; omega
    · exact absurd rfl hx
  | sendLow =>
    rcases x with b | _ | _
    · simp only [effectOf, EffectProgress, stepsAt, hq]; omega
    · simp only [effectOf, EffectProgress, stepsAt, hq]; omega
    · exact absurd rfl hx
  | release =>
    rcases d with ⟨_ | _⟩ | _
    · simp only [effectOf, EffectProgress, stepsAt, hq]; omega
    · simp only [effectOf, EffectProgress, stepsAt, hq]; omega
    · exact absurd rfl hd
  | restore =>
    cases d with
    | returns r => simp only [effectOf, EffectProgress, stepsAt, hq]; omega
    | never => exact absurd rfl hd
  | failed => simp only [effectOf, EffectProgress, hq]

theorem Supplied.driveAnswer_ne_never (h : Supplied (n + 1) s) : driveAnswer s ≠ .never := by
  obtain ⟨⟨hlen, hnever⟩, -⟩ := h
  obtain ⟨a, ds, hds⟩ := List.exists_cons_of_length_pos (Nat.zero_lt_of_lt hlen)
  rw [driveAnswer_of_scripted hds]
  rintro rfl
  exact hnever (by simp [hds])

theorem Supplied.exchangeAnswer_ne_never (h : Supplied (n + 1) s) : exchangeAnswer s ≠ .never := by
  obtain ⟨-, hlen, hnever⟩ := h
  obtain ⟨a, es, hes⟩ := List.exists_cons_of_length_pos (Nat.zero_lt_of_lt hlen)
  rw [exchangeAnswer_of_scripted hes]
  rintro rfl
  exact hnever (by simp [hes])

/-- A step uses up at most one answer of each kind. -/
theorem Supplied.advance (h : Supplied (n + 1) s) (plan : Nat → Locals → Action) : Supplied n (advance i plan k l s) := by
  obtain ⟨⟨hd, hdn⟩, hx, hxn⟩ := h
  have hkeep : Supplied n s := ⟨⟨Nat.le_of_succ_le hd, hdn⟩, Nat.le_of_succ_le hx, hxn⟩
  have hd' : n ≤ s.env.drives.tail.length := by rw [List.length_tail]; omega
  have hx' : n ≤ s.env.exchanges.tail.length := by rw [List.length_tail]; omega
  rw [advance_eq_effect]
  cases effectOf l (plan s.poll l) (driveAnswer s) (exchangeAnswer s) with
  | wait => exact hkeep
  | drive d r l' => exact ⟨⟨hd', fun hm => hdn (List.mem_of_mem_tail hm)⟩, hkeep.2⟩
  | exchange out b l' => exact ⟨hkeep.1, hx', fun hm => hxn (List.mem_of_mem_tail hm)⟩
  | finish r => exact hkeep

/-- One step of a command whose calls return ends it or leaves it fewer steps to take. -/
theorem advance_progress (hs : BlockInv s) (hp : s.phase = .busy i k l) (hd : driveAnswer s ≠ .never)
    (hx : exchangeAnswer s ≠ .never) :
    (∃ r, (advance i (planOf i) k l s).phase = .idle ∧ (advance i (planOf i) k l s).resp = some r) ∨
    (∃ l', (advance i (planOf i) k l s).phase = .busy i (k + 1) l' ∧ stepsAt (maxTxns i) l' < stepsAt (maxTxns i) l) := by
  obtain ⟨hpoll, -, hpt, hv⟩ := (blockInv_busy hp).1 hs
  have hprog : EffectProgress (maxTxns i) (stepsAt (maxTxns i) l)
      (effectOf l (planOf i s.poll l) (driveAnswer s) (exchangeAnswer s)) := by
    by_cases hl : l.point = .between
    · simpa only [effectOf, hl] using startEffect_progress hl (planOf_actionInv hpoll hl hv) hd
    · exact inFlightEffect_progress hl (hpt.txns_lt hl) hd hx _
  rw [advance_eq_effect]
  generalize effectOf l (planOf i s.poll l) (driveAnswer s) (exchangeAnswer s) = e at hprog ⊢
  cases e with
  | wait => exact hprog.elim
  | drive d r l' => exact .inr ⟨l', rfl, hprog⟩
  | exchange out b l' => exact .inr ⟨l', rfl, hprog⟩
  | finish r => exact .inl ⟨r, rfl, rfl⟩

/-- No effect of a command touches the reset input. -/
@[simp] theorem Effect.apply_resetLine (e : Effect) : (e.apply i k s).env.resetLine = s.env.resetLine := by
  cases e <;> rfl

theorem advance_resetLine (plan : Nat → Locals → Action) :
    (advance i plan k l s).env.resetLine = s.env.resetLine := by
  rw [advance_eq_effect, setPoll_env, Effect.apply_resetLine]

/-- With answers for as many steps as the bound, the command ends within it. -/
theorem exists_run_to_end (hs : BlockInv s) (hz : s.env.resetLine = false) (hp : s.phase = .busy i k l)
    (hn : stepsAt (maxTxns i) l ≤ n) (ha : Supplied n s) :
    ∃ m t r, m ≤ n ∧ run m s = .next t ∧ t.phase = .idle ∧ t.resp = some r := by
  induction n generalizing s k l with
  | zero =>
    obtain ⟨-, -, hpt, -⟩ := (blockInv_busy hp).1 hs
    exact absurd hpt.stepsAt_bounds.1 (Nat.not_lt.2 hn)
  | succ n ih =>
    have hrun (m : Nat) := run_succ_of_busy (n := m) hz hp
    obtain ⟨r, hidle, hresp⟩ | ⟨l', hbusy, hlt⟩ :=
      advance_progress hs hp ha.driveAnswer_ne_never ha.exchangeAnswer_ne_never
    · exact ⟨1, _, r, Nat.le_add_left 1 n, hrun 0, hidle, hresp⟩
    · obtain ⟨m, t, r, hm, ht, hend⟩ :=
        ih (advance_keeps_blockInv hs hp) ((advance_resetLine _).trans hz) hbusy (by omega) (ha.advance _)
      exact ⟨m + 1, t, r, Nat.succ_le_succ hm, (hrun m).trans ht, hend⟩

end

/-- Settles O53, by induction on the bound: each step that does not wait takes at least one off it. -/
theorem everyCommandEnds : Obligations.EveryCommandEnds := by
  intro s i k l hs hz hp hd hx hdn hxn
  obtain ⟨-, -, hpt, -⟩ := (blockInv_busy hp).1 hs
  have heq : stepsLeft s = stepsAt (maxTxns i) l := stepsLeft_busy hp
  obtain ⟨n, t, r, hn, hend⟩ := exists_run_to_end hs hz hp heq.ge ⟨⟨hd, hdn⟩, hx, hxn⟩
  exact ⟨n, t, r, hn, (hn.trans heq.le).trans hpt.stepsAt_bounds.2, hend⟩

end Sys2Proof.Machine
end
